-- ==== Sys2Proof/Word.lean ====
section
/-!
DEFINITION. The LX-4218's quantities (00_scope.md R4 to R11, R17) and the small fixed sets of names that commands and
state share: dies, lanes, rings, blocks that can be reset, sites of an uncorrectable word.
-/

namespace Sys2Proof

/-- An 18-bit word (R8). -/
abbrev Word := BitVec 18

/-- A 36-bit tide number (R46). -/
abbrev Tide := BitVec 36

/-- An octet (R5, R11). -/
abbrev Byte := BitVec 8

/-- Octets in the order they are carried (R11). -/
abbrev Octets := List (BitVec 8)

/-- A set of point groups: bit g is group g, g from 0 to 511 (R18, R304). -/
abbrev GSet := BitVec 512

/-- The two dies (01_architecture.md). The same two names stand for the two power stages and feeds (R381). -/
inductive Die where
  | A
  | B
  deriving DecidableEq, Repr

/-- The two lanes of a field port or of the Hawser (R17). -/
inductive Lane where
  | A
  | B
  deriving DecidableEq, Repr

/-- The two rings of the Zuphor core (01_architecture.md). -/
inductive Ring where
  | exec
  | part
  deriving DecidableEq, Repr

/-- The kinds of a refused partition access, with the codes of CORE.PSTAT.FKIND (R38). -/
inductive Access where
  | read
  | write
  | fetch
  deriving DecidableEq, Repr

/-- An access on the A-die's bus (R31, R32). -/
inductive BusOp where
  | read
  | write (v : Word)
  | fetch
  deriving DecidableEq, Repr

/-- What can be reset as a reaction: the rows of R328. -/
inductive RstUnit where
  | fpe (n : Fin 4)
  | mgp
  | svc
  | pws (side : Die)
  deriving DecidableEq, Repr

/-- Where an uncorrectable word is read (R20, with R183, R238, R298, R322, R323, R357). -/
inductive UeSite where
  | dataSram (a : BitVec 24)
  | instrSram (a : BitVec 24)
  | workingBank (p : Word)
  | bTable (a : BitVec 24)
  | bPoint (p : Word)
  | fpeBuffer (n : Fin 4)
  | mgpBuffer
  | svcBuffer (path : BitVec 2)
  deriving DecidableEq, Repr

/-- The frame a SERVICE_FRAME_RECEIVED step acts on: the oldest SERVICE copy that landed on a field port, or a frame
that both dies received on a Hawser lane (R224, R246). -/
inductive SvcFrame where
  | landed
  | hawser (l : Lane) (fa fb : Octets)
  deriving DecidableEq, Repr

/-- What the pins and measurements show at intake close: five reads of the 32 inputs by each front end (R184), the two
output supplies in 10 mV as front end A and as front end B measures them (R200), and the sensor current in mA (R204). -/
structure PinSample where
  inA : List (BitVec 32)
  inB : List (BitVec 32)
  supA : Word
  supB : Word
  supA2 : Word
  supB2 : Word
  isens : Word
  deriving DecidableEq, Repr

/-- A datagram as the tap of each die received it on port M (R23, R106). -/
structure DieCopies where
  a : List (BitVec 8)
  b : List (BitVec 8)
  deriving DecidableEq, Repr

/-- What a run of proof steps brings from the dies: whether the opcode vectors passed (R171, log 31), and how many steps are
finished before the comparison phase begins, 16 in a tide at most (R176). -/
structure ProofRun where
  vectors : Bool
  steps : Fin 17
  deriving DecidableEq, Repr

/-- The request slot a fuse command comes from: the FUSE_PROGRAM entry (session and slot), or the FUS registers. -/
inductive FuseVia where
  | entry (s : Fin 8) (r : Fin 16)
  | regs
  deriving DecidableEq, Repr

end Sys2Proof
end

