-- ==== Sys2Proof/Syntax.lean ====
section
/-!
DEFINITION. The commands: one constructor per row of spec/opcode_table.json, in the table's order. The operands say what
the outside world or a detector supplies at that step; the table gives no operand fields of its own. `s r` names a
session and one of its request slots (R282).
-/

namespace Sys2Proof

/-- The steps of the table of operations and events. -/
inductive Instr where
  -- the tide, the Gangway, evaluation and comparison
  | tideStart
  | heartbeatArrivalB
  | gangwayHeartbeatReceived (d : Die) (devPpm : Int)
  | gangwayHeartbeatTimeout (d : Die)
  | gangwayFrameCrcFail (d : Die)
  | inputCopyReceive (p : Fin 4) (l : Lane) (fa fb : Octets)
  | aVerdictReceived
  | landingNoticeReceived
  | intakeClose (pins : PinSample)
  | closeListReceived
  | channelAEvalComplete
  | channelBEvalComplete
  | comparisonStart
  | signatureFrameReceived (d : Die)
  | signatureDeadline
  | verdictExchange
  | verdictFrameReceived (d : Die)
  | verdictDeadline (d : Die)
  | commitFence
  | mirroringStart
  | mirrorLate
  | emissionStart
  | mirrorCompletenessCheck
  | guardStart (unsent : List Nat)
  | bStatusMirror
  | scrub (d : Die) (flips : List (BitVec 24 × BitVec 24))
  | uncorrectableWord (site : UeSite)
  -- events and moorings
  | eventSourceFires (src : Fin 144) (gs : GSet) (subj : BitVec 32)
  | moorSignalReceived (d : Die)
  | registerParityFault (b : Fin 18)
  | settleEnd (u : RstUnit)
  | blockResetEnd (u : RstUnit) (ok : Bool)
  | evbSelfClear (found : BitVec 16)
  | eventClear (b : Fin 18) (bits found : BitVec 16)
  | severityWrite (b : Fin 18) (hi : Bool) (v : Word)
  | eventFirstRead (b : Fin 18)
  | tideNumRead (committed : Bool)
  | timSourceClear (k : Fin 12)
  | islandRailFault (d : Die)
  -- lanes and time alignment
  | laneDown (p : Fin 4) (l : Lane) (present : Bool)
  | hawserLinkDown (l : Lane) (present : Bool)
  | mgpLinkLoss
  | ptpSyncSend
  | ptpAnnounceSend
  | ptpDelayReqReceived (p : Fin 4) (l : Lane) (ident : BitVec 80) (sequence : BitVec 16)
  | hawserSyncReceived (off : Int)
  -- SERVICE and enrolment
  | serviceFrameReceived (f : SvcFrame)
  | serviceReassemblyTimeout
  | enrolRequest
  | enrolAccept
  | enrolRefuse
  | offerTimeout (n : Fin 8192)
  | slowOffer (n : Fin 8192)
  | enrolEnd
  -- the twin
  | hawserHeartbeatReceived (l : Lane) (fa fb : Octets)
  | heartbeatDeadline
  | mirrorFrameReceived (l : Lane) (fa fb : Octets)
  | resyncLeaderTimeout
  | twinHoldExpiry
  | resyncStall
  | pairCommitTimeout
  -- sessions, requests, Helm
  | udpDatagramReceived (ip : BitVec 128) (port : BitVec 16) (frag : Bool) (copies : DieCopies)
  | sessOpen
  | sessClose
  | request
  | read (s : Fin 8) (r : Fin 16)
  | write (s : Fin 8) (r : Fin 16)
  | fence (s : Fin 8) (r : Fin 16)
  | helmRequest (s : Fin 8) (r : Fin 16)
  | helmRelease (s : Fin 8) (r : Fin 16)
  | helmHandover (s : Fin 8) (r : Fin 16)
  | subscribe (s : Fin 8) (r : Fin 16)
  | helmLeaseExpiry
  | seizureNoticeEnd
  | sessionTimeout (s : Fin 8)
  -- writes of single entries
  | protectionWrite (s : Fin 8) (r : Fin 16)
  | levelKeyWrite (s : Fin 8) (r : Fin 16)
  | sessionClose (s : Fin 8) (r : Fin 16)
  | settingsStoreWrite
  | moorCommandGroups (s : Fin 8) (r : Fin 16)
  | moorCommandModule (s : Fin 8) (r : Fin 16)
  | unmoorRequestGroups (s : Fin 8) (r : Fin 16)
  | unmoorRequestModule (s : Fin 8) (r : Fin 16)
  | softRestart (s : Fin 8) (r : Fin 16)
  | benchEnter (s : Fin 8) (r : Fin 16)
  | benchLeave (s : Fin 8) (r : Fin 16)
  | partitionResume (s : Fin 8) (r : Fin 16)
  | partitionSuspend (s : Fin 8) (r : Fin 16)
  | tidePeriodWrite (s : Fin 8) (r : Fin 16)
  | tideBudgetReportClear (s : Fin 8) (r : Fin 16)
  | nodeReenrol (s : Fin 8) (r : Fin 16)
  | eventClearEntry (s : Fin 8) (r : Fin 16) (found : BitVec 16)
  | eventSeverityEntry (s : Fin 8) (r : Fin 16)
  | powerRetry (s : Fin 8) (r : Fin 16)
  | standbyTestNow (s : Fin 8) (r : Fin 16)
  -- staging and commit of a Manifest
  | manifestStageOpen (s : Fin 8) (r : Fin 16)
  | manifestStageClose (s : Fin 8) (r : Fin 16)
  | manifestStageDiscard (s : Fin 8) (r : Fin 16)
  | norEraseDone (ok : Bool)
  | manifestData (s : Fin 8) (r : Fin 16) (stuckA stuckB : Octets) (readBack : Bool)
  | stageVerifyDone
  | stageProofStep (run : ProofRun)
  | manifestCommit (s : Fin 8) (r : Fin 16)
  | commitConfirmed
  | commitTimeout (failed : Bool)
  | commitSwap
  | coneTableRebuilt
  | backgroundManifestCheck (d : Die)
  -- the partition and register accesses
  | svcPostLocal
  | svcPostPeer
  | svcMessageReceived (peer : Bool)
  | partitionAccessFault (k : Access) (addr : BitVec 24)
  | fenceMem (ring : Ring)
  | fencePort
  | fenceDict (reg : BitVec 8)
  | fenceDictSettled
  | partitionInterrupt
  | classNWrite (ring : Ring) (v : Word)
  | runAheadEnableWrite (v : Word)
  | tidePeriodRegisterWrite (v : Word)
  | registerWrite (ring : Ring) (addr : BitVec 24) (op : BusOp)
  -- local inputs, outputs and tests
  | pulseCheck (ra rb : List (BitVec 32))
  | afterCheck (ra rb : List (BitVec 32))
  | readbackSample (ra rb : BitVec 16)
  | commandLinkTransfer (ok : Bool)
  | outputTestReadbackPass (q : Fin 16)
  | outputTestTimeout (q : Fin 16)
  | outputTestEnd (q : Fin 16) (returned : Bool)
  | testAbort (q : Fin 16)
  | outputOverload (q : Fin 16)
  | testFeedOverload (n : Fin 8) (stuck : Bool)
  | sensOverload
  -- feeds, stages, reset contact
  | feedOutOfRange (side : Die)
  | feedInRange (side : Die) (dc : Bool)
  | stageSoftStartDone (side : Die)
  | stageSelfCheckDone (side : Die) (ok : Bool)
  | stageFailure (side : Die) (overVolt : Bool)
  | holdupCutoff
  | dieRelease
  | standbyTestStart
  | standbyTestEnd (ok : Bool)
  | pwsCmdTest
  | pwsCmdRetry (a b : Bool)
  | rstNClose (ohms : Nat)
  | rstPend
  | rstHold
  | rstLong
  | rstNOpen (ohms : Nat) (tenths : Word)
  -- start-up
  | powerUp
  | fuseReadDone (x7 : BitVec 6)
  | selfTestDone (failed : Option (Fin 7))
  | manifestLoadDone
  | translateProveDone (vectors : Bool)
  -- fuses
  | fuseResense (ra rb : List (Word × Word))
  | fuseProgram (via : FuseVia)
  | fuseSeal (via : FuseVia)
  | fuseWlock (via : FuseVia)
  | fuseRlock (via : FuseVia)
  | fuseMap (via : FuseVia)
  | fuseReburn (via : FuseVia)
  | fuseRead (via : FuseVia)
  | fuseCommandDone (pulses : BitVec 6) (ok : Bool) (lo hi : Word)
  | fuseOverride (s : Fin 8) (r : Fin 16)
  | fuseOverrideClear (via : FuseVia)
  -- the recorder
  | pageProgram (ok : Bool)
  | tideCheckpoint
  | chainCheck
  | flushComplete
  | recordDrop (p new old : Word)
  | recPageRead (oldest : Bool)
  -- timers
  | timerTick (n : Fin 16)
  | timerReload (n : Fin 16)
  | timerCompareFire (n : Fin 16)
  | timerCaptureEdge (n : Fin 16) (rising : Bool)
  | timerCntWrite (n : Fin 16) (v : Word)
  | timerCmpWrite (n : Fin 16) (v : Word)
  | timerCapselWrite (n : Fin 16) (div : Bool) (v : Word)
  | timerCntLowRead (n : Fin 16) (cap : Bool) (ring : Ring)
  | timGo (v : Word)
  | timHalt (v : Word)
  | debugHalt
  -- check engines
  | chkStart (k : Fin 4)
  | chkCheck (k : Fin 4)
  | chkCheck2 (k : Fin 4) (ring : Ring) (flipsA flipsB : BitVec 24)
  | chkFeed8 (k : Fin 4) (v : Word)
  | chkFeed16 (k : Fin 4) (v : Word)
  | chkFeed9 (k : Fin 4) (v : Word)
  | chkFeed18 (k : Fin 4) (v : Word)
  | chkResLRead (k : Fin 4)
  -- rows the source's table adds at its end
  | manifestLoadRefused
  | bellRelayRelease
  | laneUp (p : Fin 4) (l : Lane)
  | hawserLinkUp (l : Lane)
  | islandRailRestored (d : Die)
  | debugResume
  | hawserSyncSend
  deriving DecidableEq, Repr

end Sys2Proof
end

