-- ==== Sys2Proof/Machine/Codec.lean ====
section
/-!
DEFINITION. Encodings shared by every block: sparse tables in canonical form, octets (R11), group sets as octets (R304),
tide numbers (R46), the SECDED code (R90), the cyclic checks (R215, R352), SHA-256 (R91) and HMAC-SHA-256 (R275).
-/

namespace Sys2Proof.Machine

/-! ## Sparse tables: rising keys, no entry equal to what an unlisted key reads as -/

/-- What key k reads as in a table whose unlisted keys read `d`. -/
def cellGet {α : Type} (d : α) : List (Nat × α) → Nat → α
  | [], _ => d
  | (j, v) :: t, k => if j = k then v else cellGet d t k

/-- The table with key k removed or replaced, keys rising, no entry equal to `d`. -/
def cellSet {α : Type} [DecidableEq α] (d : α) : List (Nat × α) → Nat → α → List (Nat × α)
  | [], k, v => if v = d then [] else [(k, v)]
  | (j, w) :: t, k, v =>
    if k < j then (if v = d then (j, w) :: t else (k, v) :: (j, w) :: t)
    else if k = j then (if v = d then t else (k, v) :: t)
    else (j, w) :: cellSet d t k v

/-- All keys are above `lo` and rise, and no entry equals `d`. -/
def cellWfFrom {α : Type} [DecidableEq α] (d : α) : Nat → List (Nat × α) → Bool
  | _, [] => true
  | lo, (j, v) :: t => decide (lo ≤ j) && decide (v ≠ d) && cellWfFrom d (j + 1) t

/-- The canonical form of a table. -/
def cellWf {α : Type} [DecidableEq α] (d : α) (l : List (Nat × α)) : Bool := cellWfFrom d 0 l

/-- Write consecutive keys from k. -/
def cellSetAll {α : Type} [DecidableEq α] (d : α) (l : List (Nat × α)) (k : Nat) : List α → List (Nat × α)
  | [] => l
  | v :: vs => cellSetAll d (cellSet d l k v) (k + 1) vs

/-- Consecutive keys from k. -/
def cellGetN {α : Type} (d : α) (l : List (Nat × α)) (k : Nat) : Nat → List α
  | 0 => []
  | n + 1 => cellGet d l k :: cellGetN d l (k + 1) n

/-- The canonical table with every key from lo to hi - 1 removed. -/
def cellErase {α : Type} (l : List (Nat × α)) (lo hi : Nat) : List (Nat × α) :=
  l.filter fun c => c.1 < lo || hi ≤ c.1

/-! ## Lists of fixed length -/

/-- Apply f to the n-th element. -/
def listMod {α : Type} (l : List α) (n : Nat) (f : α → α) : List α :=
  match l, n with
  | [], _ => []
  | x :: t, 0 => f x :: t
  | x :: t, n + 1 => x :: listMod t n f

/-- How many elements satisfy p. -/
def countIf {α : Type} (l : List α) (p : α → Bool) : Nat := (l.filter p).length

/-- Insert an element before the first one it is not after. -/
def insertBy {α : Type} (le : α → α → Bool) (x : α) : List α → List α
  | [] => [x]
  | y :: t => if le x y then x :: y :: t else y :: insertBy le x t

/-- Sort by insertion. -/
def sortBy {α : Type} (le : α → α → Bool) (l : List α) : List α := l.foldr (insertBy le) []

/-! ## Octets and bits -/

/-- The n octets of v, most significant first (R11). -/
def be (n v : Nat) : Octets :=
  match n with
  | 0 => []
  | n + 1 => BitVec.ofNat 8 (v / 256 ^ n) :: be n v

/-- The number a string of octets spells, most significant first (R11). -/
def ofBe (os : Octets) : Nat := os.foldl (fun a o => a * 256 + o.toNat) 0

/-- Octets i to i + n - 1; absent octets are left out. -/
def slice (os : Octets) (i n : Nat) : Octets := (os.drop i).take n

/-- The number in the n octets from octet i. -/
def field (os : Octets) (i n : Nat) : Nat := ofBe (slice os i n)

/-- Bit b of a number. -/
def bitOf (v b : Nat) : Bool := v / 2 ^ b % 2 == 1

/-- A Bool as a bit. -/
def b2n (b : Bool) : Nat := if b then 1 else 0

/-- Bits hi down to lo of a word (R8), as a number. -/
def fld {n : Nat} (w : BitVec n) (hi lo : Nat) : Nat := w.toNat / 2 ^ lo % 2 ^ (hi + 1 - lo)

/-- Octets of text padded with 0x00 (R267). -/
def textOct (n : Nat) (s : List Nat) : Octets :=
  (s.map (BitVec.ofNat 8) ++ List.replicate n 0).take n

/-- A set of groups as 64 octets: group 8·i + b in bit b of octet i (R304). -/
def gsetOct (g : GSet) : Octets := (List.range 64).map fun i => BitVec.ofNat 8 (g.toNat / 256 ^ i)

/-- The set of groups in up to 64 octets (R304). -/
def gsetOf (os : Octets) : GSet :=
  BitVec.ofNat 512 (os.reverse.foldl (fun a o => a * 256 + o.toNat) 0)

/-- The set that holds group g alone. -/
def gBit (g : Nat) : GSet := BitVec.ofNat 512 (2 ^ g)

/-- Whether group g is in the set. -/
def gHas (s : GSet) (g : Nat) : Bool := s.getLsbD g

/-- The groups of a set, ascending. -/
def gList (s : GSet) : List Nat := (List.range 512).filter fun g => gHas s g

/-- The union of single groups. -/
def gOf (l : List Nat) : GSet := l.foldl (fun a g => a ||| gBit g) 0

/-- The set without the groups of another. -/
def gMinus (a b : GSet) : GSet := a &&& ~~~ b

/-- The group of a point (R17). -/
def groupOf (p : Nat) : Nat := p / 512

/-- Add 1 to a U18 counter that saturates at 0o777777 (R237). -/
def sat18 (w : Word) : Word := if w.toNat = 262143 then w else w + 1

/-- Add 1 to a 16-bit count that saturates (R78, R239). -/
def sat16 (w : BitVec 16) : BitVec 16 := if w.toNat = 65535 then w else w + 1

/-- Set or clear bit j of a bit field. -/
def setBit {n : Nat} (w : BitVec n) (j : Nat) (b : Bool) : BitVec n :=
  if b then w ||| BitVec.ofNat n (2 ^ j) else w &&& ~~~ BitVec.ofNat n (2 ^ j)

/-- The bit field with a bit for each index that satisfies p. -/
def bitsOf (n : Nat) (p : Nat → Bool) : BitVec n :=
  BitVec.ofNat n ((List.range n).foldl (fun a i => a + b2n (p i) * 2 ^ i) 0)

/-! ## Tide numbers (R46) -/

/-- n is later than m. -/
def later (n m : Tide) : Bool := n ≠ m && (n - m).toNat < 2 ^ 35

/-- The tide in progress `now` has reached t. -/
def reached (now t : Tide) : Bool := !later t now

/-- The tide n tides after t. -/
def tideAdd (t : Tide) (n : Nat) : Tide := t + BitVec.ofNat 36 n

/-- Tides from m to n, modulo 2^36. -/
def tideGap (n m : Tide) : Nat := (n - m).toNat

/-- The acceptance window of R226 over n-bit values with the last k of them: the new highest value and record when v is
accepted (bit i of the record is the value i below the highest). -/
def winTake {n k : Nat} (high : BitVec n) (seen : BitVec k) (v : BitVec n) : Option (BitVec n × BitVec k) :=
  let d := (v - high).toNat
  let age := (high - v).toNat
  if d ≠ 0 ∧ d < 2 ^ (n - 1) then some (v, if d < k then (seen <<< d) ||| 1 else 1)
  else if age < k ∧ !seen.getLsbD age then some (high, setBit seen age true)
  else none

/-! ## The SECDED code of R90 -/

/-- The syndrome codes s(0) to s(17). -/
def eccCodes : List Nat := [3, 5, 6, 7, 9, 10, 11, 12, 13, 14, 15, 17, 18, 19, 20, 21, 22, 23]

/-- Check bits c0 to c4 of a word. -/
def eccCheck (w : Word) : BitVec 5 :=
  (List.range 18).foldl (fun c i =>
    if w.getLsbD i then c ^^^ BitVec.ofNat 5 (eccCodes.getD i 0) else c) 0

/-- The parity of a bit field. -/
def parity {n : Nat} (w : BitVec n) : Bool := (List.range n).foldl (fun p i => p != w.getLsbD i) false

/-- The 24-bit codeword of a word: bits 23:18 are c5 to c0 (R90). -/
def eccEncode (w : Word) : BitVec 24 :=
  let c := eccCheck w
  let c5 := parity w != parity c
  BitVec.ofNat 24 (w.toNat + c.toNat * 2 ^ 18 + b2n c5 * 2 ^ 23)

/-- The word a codeword holds, with a single-bit error corrected; none for an uncorrectable word (R20, R90). -/
def eccDecode (cw : BitVec 24) : Option Word :=
  let w : Word := cw.setWidth 18
  let c : BitVec 5 := (cw >>> 18).setWidth 5
  let syn := (eccCheck w ^^^ c).toNat
  if parity cw then
    if syn = 0 ∨ syn = 1 ∨ syn = 2 ∨ syn = 4 ∨ syn = 8 ∨ syn = 16 then some w
    else match eccCodes.findIdx? (· == syn) with
      | some i => some (w ^^^ BitVec.ofNat 18 (2 ^ i))
      | none => none
  else if syn = 0 then some w else none

/-! ## Cyclic checks (R215, R352) -/

/-- One bit into a reflected CRC-32 register; `poly` is the bit-reversed polynomial. -/
def crcBitR (poly reg : BitVec 32) (b : Bool) : BitVec 32 :=
  if reg.getLsbD 0 != b then (reg >>> 1) ^^^ poly else reg >>> 1

/-- One bit into a CRC-32 register that is not reflected. -/
def crcBitN (poly reg : BitVec 32) (b : Bool) : BitVec 32 :=
  if reg.getLsbD 31 != b then (reg <<< 1) ^^^ poly else reg <<< 1

/-- One bit into the CRC-16 register, held in bits 15:0. -/
def crcBit16 (poly reg : BitVec 32) (b : Bool) : BitVec 32 :=
  let sh := (reg <<< 1) &&& 0xFFFF
  if reg.getLsbD 15 != b then sh ^^^ poly else sh

/-- The low n bits of a value, least significant first. -/
def bitsL (n v : Nat) : List Bool := (List.range n).map (bitOf v)

/-- The low n bits of a value, most significant first. -/
def bitsM (n v : Nat) : List Bool := (bitsL n v).reverse

/-- CRC-32C over octets (R215): reflected, polynomial 0x1EDC6F41, initial value and final XOR 0xFFFFFFFF. -/
def crc32c (os : Octets) : BitVec 32 :=
  (os.foldl (fun r o => (bitsL 8 o.toNat).foldl (crcBitR 0x82F63B78) r) 0xFFFFFFFF) ^^^ 0xFFFFFFFF

/-- CRC-32K over octets (R215): not reflected, polynomial 0x741B8CD7, initial value and final XOR 0xFFFFFFFF. -/
def crc32k (os : Octets) : BitVec 32 :=
  (os.foldl (fun r o => (bitsM 8 o.toNat).foldl (crcBitN 0x741B8CD7) r) 0xFFFFFFFF) ^^^ 0xFFFFFFFF

/-- CRC-16/CCITT over octets (code 3 of R352). -/
def crc16 (os : Octets) : BitVec 16 :=
  (os.foldl (fun r o => (bitsM 8 o.toNat).foldl (crcBit16 0x1021) r) 0xFFFF).setWidth 16

/-! ## SHA-256 (FIPS 180-4) and HMAC-SHA-256 (R91, R275) -/

/-- The k 32-bit words that a number holds, the uppermost first. -/
def words32 (k v : Nat) : List (BitVec 32) := (List.range k).map fun i => BitVec.ofNat 32 (v / 2 ^ (32 * (k - 1 - i)))

/-- The round constants, eight to a number. -/
def shaConst : List (BitVec 32) :=
  [0x428a2f9871374491b5c0fbcfe9b5dba53956c25b59f111f1923f82a4ab1c5ed5,
   0xd807aa9812835b01243185be550c7dc372be5d7480deb1fe9bdc06a7c19bf174,
   0xe49b69c1efbe47860fc19dc6240ca1cc2de92c6f4a7484aa5cb0a9dc76f988da,
   0x983e5152a831c66db00327c8bf597fc7c6e00bf3d5a7914706ca635114292967].flatMap (words32 8) ++
  [0x27b70a852e1b21384d2c6dfc53380d13650a7354766a0abb81c2c92e92722c85,
   0xa2bfe8a1a81a664bc24b8b70c76c51a3d192e819d6990624f40e3585106aa070,
   0x19a4c1161e376c082748774c34b0bcb5391c0cb34ed8aa4a5b9cca4f682e6ff3,
   0x748f82ee78a5636f84c878148cc7020890befffaa4506cebbef9a3f7c67178f2].flatMap (words32 8)

/-- The chaining value before the first block: the variables a to d, then e to h. -/
def shaStart : List (BitVec 32) × List (BitVec 32) :=
  (words32 4 0x6a09e667bb67ae853c6ef372a54ff53a, words32 4 0x510e527f9b05688c1f83d9ab5be0cd19)

/-- The XOR of a word rotated right by each of some amounts. -/
def spin (x : BitVec 32) (rs : List Nat) : BitVec 32 := rs.foldl (fun acc r => acc ^^^ x.rotateRight r) 0

/-- The message schedule: word 16 + i of it follows from words i, i + 1, i + 9 and i + 14. -/
def shaSchedule (blk : Octets) : List (BitVec 32) :=
  (List.range 48).foldl (fun w i =>
    let at' (j : Nat) : BitVec 32 := w.getD (i + j) 0
    w ++ [at' 0 + (spin (at' 1) [7, 18] ^^^ (at' 1 >>> 3)) + at' 9 + (spin (at' 14) [17, 19] ^^^ (at' 14 >>> 10))])
    (words32 16 (ofBe (blk.take 64)))

/-- One round, the variables held as the last four values of a and the last four of e. -/
def shaTurn (v : List (BitVec 32) × List (BitVec 32)) (kw : BitVec 32) : List (BitVec 32) × List (BitVec 32) :=
  match v with
  | ([a0, a1, a2, a3], [e0, e1, e2, e3]) =>
    let pick := e2 ^^^ (e0 &&& (e1 ^^^ e2))
    let vote := (a0 &&& (a1 ||| a2)) ||| (a1 &&& a2)
    let up := e3 + spin e0 [6, 11, 25] + pick + kw
    ([up + spin a0 [2, 13, 22] + vote, a0, a1, a2], [a3 + up, e0, e1, e2])
  | _ => v

/-- The compression of one block into the chaining value. -/
def shaMix (h : List (BitVec 32) × List (BitVec 32)) (blk : Octets) : List (BitVec 32) × List (BitVec 32) :=
  let r := (List.zipWith (· + ·) shaConst (shaSchedule blk)).foldl shaTurn h
  (List.zipWith (· + ·) h.1 r.1, List.zipWith (· + ·) h.2 r.2)

/-- The first n blocks of a padded message. -/
def shaChain (h : List (BitVec 32) × List (BitVec 32)) (os : Octets) (n : Nat) :
    List (BitVec 32) × List (BitVec 32) :=
  (List.range n).foldl (fun h i => shaMix h (slice os (64 * i) 64)) h

/-- SHA-256 of a string of octets: padded with 0x80, zeros and the length in bits. -/
def sha256 (os : Octets) : Octets :=
  let bits := 8 * os.length
  let tail : Octets := 0x80 :: List.replicate ((119 - os.length % 64) % 64) 0 ++ be 8 bits
  let h := shaChain shaStart (os ++ tail) ((os.length + tail.length) / 64)
  (h.1 ++ h.2).flatMap fun w => be 4 w.toNat

/-- HMAC-SHA-256 truncated to its first 16 octets (R275), for a 32-octet key. -/
def mac (key : Octets) (msg : Octets) : Octets :=
  let k := (key ++ List.replicate 64 0).take 64
  (sha256 (k.map (· ^^^ 0x5c) ++ sha256 (k.map (· ^^^ 0x36) ++ msg))).take 16

/-- Words as octets the way a Manifest is hashed: three octets a word (R91). -/
def wordsOct (ws : List Word) : Octets := ws.flatMap fun w => be 3 w.toNat

/-- A digest as 16 words of two octets (R91). -/
def digestOfWords (ws : List Word) : Octets := ws.flatMap fun w => be 2 (w.toNat % 65536)

/-- A 36-bit number from its low and high word (R10). -/
def u36 (l h : Word) : Nat := l.toNat + h.toNat * 2 ^ 18

end Sys2Proof.Machine
end

