-- ==== Sys2Proof/Config.lean ====
section
/-!
DEFINITION. What one implementation fixes: the source table (R76, R182, R183, R205, R238, R266, R298, R322, R323), the
phase positions (R49, R166), the settle times (R328), the dictionary's timing figures, and the free values, constants
without a body that stand for what the manual leaves open.
-/

namespace Sys2Proof.Config

/-- The first global source of each block, in the block order of R309. -/
def evBase : List Nat := [0, 8, 20, 36, 48, 56, 64, 72, 80, 90, 94, 110, 114, 122, 126, 130, 138, 142, 144]

/-- The default severity of every global source: 0 Record, 1 Alert, 2 Degrade, 3 Moor (R319). -/
def sevTable : List (BitVec 2) :=
  [3, 3, 2, 1, 1, 1, 3, 0] ++                                   -- TIDE, R76
  [2, 2, 3, 3, 3, 3, 0, 1, 3, 3, 3, 3] ++                       -- GWY, R182
  [3, 3, 2, 0, 1, 0, 1, 2, 3, 3, 1, 1, 0, 0, 1, 1] ++           -- EVA, R183
  [3, 2, 3, 3, 3, 3, 1, 3, 2, 1, 1, 1] ++                       -- EVB, R322
  [1, 1, 0, 0, 1, 1, 1, 2] ++ [1, 1, 0, 0, 1, 1, 1, 2] ++       -- FPE_0, FPE_1, R238
  [1, 1, 0, 0, 1, 1, 1, 2] ++ [1, 1, 0, 0, 1, 1, 1, 2] ++       -- FPE_2, FPE_3, R238
  [1, 1, 1, 1, 0, 1, 1, 0, 3, 1] ++                             -- HWS, R266
  [0, 0, 1, 1] ++                                               -- MGP, R323
  [1, 1, 1, 3, 3, 3, 3, 1, 2, 2, 1, 1, 0, 1, 1, 2] ++           -- LIO, R205
  [1, 1, 1, 1] ++                                               -- TPG, R205
  [0, 0, 0, 0, 0, 0, 0, 0] ++                                   -- TIM, R323
  [0, 0, 0, 0] ++                                               -- CHK, R323
  [1, 1, 1, 3] ++                                               -- FUS, R323
  [1, 1, 1, 1, 0, 1, 3, 0] ++                                   -- PWS, R323
  [1, 1, 0, 1] ++                                               -- REC, R323
  [0, 1]                                                        -- SVC, R298

/-- The first source of block b. -/
def baseOf (b : Nat) : Nat := evBase.getD b 144

/-- How many sources block b has. -/
def countOf (b : Nat) : Nat := baseOf (b + 1) - baseOf b

/-- The block of a global source (R321 to R323). -/
def blockOf (src : Nat) : Nat := (evBase.filter (· ≤ src)).length - 1

/-- The default severity of a global source. -/
def sevDefault (src : Nat) : BitVec 2 := sevTable.getD src 0

/-- SEV_L (nine sources from local index 0) or SEV_H (seven sources from local index 9) with the defaults (R316). -/
def sevWord (b : Nat) (hi : Bool) : Word :=
  let off := if hi then 9 else 0
  let n := if hi then 7 else 9
  (List.range n).foldl (fun w i =>
    if off + i < countOf b then w ||| ((sevDefault (baseOf b + off + i)).setWidth 18 <<< (2 * i)) else w) 0

/-- The intra-tide tick of a position given in µs at the 2 ms setting, rounded down (R14, R15). -/
def tickAt (us : Nat) : BitVec 12 := BitVec.ofNat 12 (us * 4096 / 2000)

/-- The same position rounded up, as budget positions are (R78). -/
def tickUp (us : Nat) : BitVec 16 := BitVec.ofNat 16 ((us * 4096 + 1999) / 2000)

/-- The row of a source in the manual names the groups of its affected set (R320): R56, R57, R155, R169, R183, R205, R238,
R322. -/
def namesGroups (src : Nat) : Bool :=
  [0, 1, 2, 8, 9, 22, 27, 37, 44, 102, 103, 109].contains src || (48 ≤ src && src < 80 && src % 8 = 7)

/-- Tides of a duration in ms at period `per` ms, rounded up (R14). -/
def tidesOf (ms per : Nat) : Nat := (ms + (per - 1)) / per

/-- The settle time of a unit that is reset as a reaction, in tides (R328). -/
def settleTides : RstUnit → Nat
  | .fpe _ => 16
  | .mgp => 8
  | .svc => 8
  | .pws _ => 4

/-- The dependent sources of a unit that is reset as a reaction (R328). -/
def dependents : RstUnit → List Nat
  | .fpe n => [48 + 8 * n.val, 49 + 8 * n.val, 51 + 8 * n.val, 52 + 8 * n.val, 54 + 8 * n.val, 25, 26, 33]
  | .mgp => [90, 91, 142]
  | .svc => [142, 91]
  | .pws _ => [134, 110, 112]

/-- The module nonce drawn from the A-die's entropy source at the n-th draw (R277): a free value (log 8). -/
opaque entropy : Nat → BitVec 64

/-- Which free session number a new session takes at the n-th draw (R278 names none): a free value (log 19). -/
opaque pickSession : Nat → Nat

/-- What RST_N reads between 100 Ω and 10 kΩ (R425: "its reading is not defined") at the n-th draw: a free value
(log 10). -/
opaque rstReads : Nat → Bool

/-- What the power-stage controller measures of feeds, currents and bus (R403) at the n-th draw: a free value (log 27). -/
opaque measured : Nat → Word

/-- Which of the T_n that have been at their current limit still are when TPG.STAT is read (R204), at the n-th draw: a free
value (log 27). -/
opaque atLimit : Nat → BitVec 8

/-- How many tides after the first boundary a commit record's forecast lies (R110 gives no figure; at most 64 tides
pass before both dies confirm) at the n-th draw: a free value (log 28). -/
opaque forecast : Nat → BitVec 6

/-- Octet j of what an action entry reads as where the manual states no value (entry number, octet): a free value
(log 29). -/
opaque actionOctet : Nat → Nat → BitVec 8

/-- Octet j of MANIFEST_STAGE_DIGEST and of MANIFEST_TOUCH in a tide outside state Ready (R105: "valid in state Ready"): a
free value (log 32). -/
opaque stagedOctet : Nat → Nat → BitVec 8

/-- Which groups a channel's result leaves incomplete when its evaluation overruns (R56 names none) at the n-th draw: a free
value (log 39). -/
opaque incomplete : Nat → BitVec 512

/-- Word j of the state of an occurrence as a die lays it out (R125: "as it chooses"); `a` says the A-die, the list is the
state: a free value (log 81). -/
opaque stateWord : (a : Bool) → List Nat → Nat → BitVec 18

/-- The state of an occurrence after word j of it has been overwritten in memory (R125): a free value (log 81). -/
opaque stateStored : List Nat → Nat → BitVec 18 → List Nat

/-- The two directory words of a node in the node layout (R42 gives no contents): a free value (log 81). -/
opaque layoutDir : (node : Nat) → (second : Bool) → BitVec 18

/-- Words of the cone table beyond three that one batch number with its 32-bit lane mask takes (R152 gives no figure): a free
value (log 82). -/
opaque coneExtra : BitVec 2

/-- How many tides translation takes (R175 bounds it), at the n-th draw: a free value (log 83). -/
opaque translation : Nat → Nat

/-- How many tides the opcode vectors take (R175: at most 64), at the n-th draw: a free value (log 83). -/
opaque vectorTides : Nat → BitVec 6

/-- What TIDE.TWOFF shows of an offset outside its signed 18 bits (R75 states none): a free value (log 78). -/
opaque twoffBeyond : Int → BitVec 18

/-- Which causes the detectors outside the state still find when a store to a CLEAR register is judged (R333), at the n-th
draw: a free value (log 43). -/
opaque detected : Nat → BitVec 16

/-- How many frames of a lane's queue have started when the queue is dropped within the emission phase (no rule times single
frames), at the n-th draw: a free value (log 14). -/
opaque startedBy : Nat → Nat

/-- The build field of EXEC_VERSION (R308: "may take any value"): a free value (log 9). -/
opaque execBuild : BitVec 18

/-- The serial number of the module, 16 octets of text (R308): a free value (log 9). -/
opaque serial : BitVec 128

/-- The source address in a field or Hawser frame, which has no meaning in the LST and is not checked (R209): a free
value (log 9). -/
opaque sourceMac : BitVec 48

/-- The zone ID in a HEARTBEAT of a halted unit, which holds no section 1 (R246, R394): a free value (log 47). -/
opaque zoneUnloaded : Word

/-- The cause octet of a TWIN record for a role change that R409 lists no cause for (0: another tide period, 1: no Leader
in Resync): a free value (log 48). -/
opaque unlistedCause : Nat → BitVec 8

/-- The bits that a burn cut off by a reset or a power loss leaves weak, of the bits it was to burn, at the n-th draw and word
(R377: the bits are left "weak or unburned"): a free value (log 59). -/
opaque burnBroken : Nat → Nat → BitVec 18

/-- SHA-256 of an erased boot image: 16,777,216 octets of 0xFF (R28, FIPS 180-4). -/
def erasedImage : List (BitVec 8) :=
  [0xdf, 0xfa, 0xb0, 0xdd, 0x41, 0x06, 0x57, 0xcb, 0x30, 0xc7, 0xb2, 0xfd, 0x7f, 0x25, 0x86, 0xa4,
   0x79, 0x2e, 0x84, 0x72, 0xe5, 0x88, 0x82, 0xb3, 0x53, 0x25, 0x81, 0xf8, 0x11, 0x1a, 0x64, 0x6d]

/-- The 16 words of a digest (R91). -/
def digestWords (ds : List (BitVec 8)) : List (BitVec 18) :=
  (List.range 16).map fun j => (ds.getD (2 * j) 0).setWidth 18 <<< 8 ||| (ds.getD (2 * j + 1) 0).setWidth 18

/-- The Safety Authority key as delivered (R272, R275), which the manual does not print: octets 0x01 to 0x20 (log 7). -/
def deliveredKey : List (BitVec 8) := (List.range 32).map fun i => BitVec.ofNat 8 (i + 1)

/-- The fuse words as delivered (R272, R363 to R367): critical fields in three closed copies, DIE_ID 0, ROLE of the die,
DEBUG_DIS 0, both trims at the nominal code 0o1000, BOOT_DIGEST that of an erased image, no repair, and on the A-die the
delivered key in region 13 with its read lock burned; every other word unburned (log 6). `a` says that the die is the A-die.
-/
def fuseFactory (a : Bool) : List (Nat × Word) :=
  (if a then [(0, 0o17776), (2, 0o20000), (4, 0o17776), (6, 0o20000)] else [(0, 0o17776), (4, 0o17776)]) ++
  [(18, if a then 0o1 else 0o2), (20, 0o1000), (21, 0o1000), (22, 0o157772)] ++
  [(23, 0o130335), (24, 0o40406), (25, 0o53713), (26, 0o30307), (27, 0o131375), (28, 0o77445)] ++
  [(29, 0o103244), (30, 0o540036), (31, if a then 0o566127 else 0o454031), (32, 0o74456), (33, 0o102162), (34, 0o162610)] ++
  [(35, 0o101263), (36, 0o51445), (37, 0o100770), (38, 0o10432), (39, 0o62155), (46, 0o540056)] ++
  [(47, 0o424331), (62, 0o540076), (63, 0o535040), (78, 0o540116), (79, 0o561520), (82, if a then 0o1 else 0o2)] ++
  [(84, 0o1000), (85, 0o1000), (86, 0o157772), (87, 0o130335), (88, 0o40406), (89, 0o53713)] ++
  [(90, 0o30307), (91, 0o131375), (92, 0o77445), (93, 0o103244), (94, 0o540136), (95, if a then 0o576654 else 0o444742)] ++
  [(96, 0o74456), (97, 0o102162), (98, 0o162610), (99, 0o101263), (100, 0o51445), (101, 0o100770)] ++
  [(102, 0o10432), (103, 0o62155), (110, 0o540156), (111, 0o434442), (126, 0o540176), (127, 0o525733)] ++
  [(142, 0o540216), (143, 0o550535), (146, if a then 0o1 else 0o2), (148, 0o1000), (149, 0o1000), (150, 0o157772)] ++
  [(151, 0o130335), (152, 0o40406), (153, 0o53713), (154, 0o30307), (155, 0o131375), (156, 0o77445)] ++
  [(157, 0o103244), (158, 0o540236), (159, if a then 0o547641 else 0o475757), (160, 0o74456), (161, 0o102162), (162, 0o162610)] ++
  [(163, 0o101263), (164, 0o51445), (165, 0o100770), (166, 0o10432), (167, 0o62155), (174, 0o540256)] ++
  [(175, 0o405457), (190, 0o540276), (191, 0o514726), (206, 0o540316), (207, 0o540246)] ++
  (if a then (List.range 16).zip (digestWords deliveredKey) |>.map fun x => (208 + x.1, x.2) else [])

end Sys2Proof.Config
end

