-- ==== Sys2Proof/Machine/State.lean ====
section
/-!
DEFINITION. The state of the LX-4218: every register, buffer, counter, mode and stored value the manual gives it, as
plain data, with the queue of commands that wait. Each field's default is its value at reset; `State.reset` takes them
all. Where the manual states no reset value the field names the log entry that gives one.
-/

namespace Sys2Proof.Machine

/-- Why a step stops with a fault. -/
inductive Fault where
  /-- Raised by no command: the manual gives every detector a reaction and every bad access an outcome (R31, R319), so
  no step stops. The name stands for an outcome outside the manual; it would be safe. -/
  | outsideManual
  deriving DecidableEq, Repr

/-- Why a step has no meaning. -/
inductive Refusal where
  /-- Raised by exec for a row whose meaning is not written. Safe: the run stops. -/
  | notModelled (mnemonic : String)
  deriving DecidableEq, Repr

/-! ## Telegrams and frames -/

/-- A Laninelm Safety Telegram as parsed or as built: header fields of R210, payload, both signatures (R209). -/
structure Lst where
  kind : BitVec 4
  src : Word
  dst : Word
  tide : Tide
  lane : Lane
  unit : Bool
  subseq : BitVec 9
  payload : Octets
  sigA : BitVec 32
  sigB : BitVec 32
  deriving DecidableEq, Repr

/-- A lane the module transmits on. -/
inductive Line where
  | field (p : Fin 4) (l : Lane)
  | hawser (l : Lane)
  deriving DecidableEq, Repr

/-- What every IEEE 1588 message of the module bears (R67): EtherType, PCP of its 802.1Q tag, domainNumber, whether the
timescale is ARB, and its PTP time in ns: of the sending, or for a response of the request's receipt. -/
structure PtpHead where
  etherType : BitVec 16
  pcp : BitVec 3
  domain : BitVec 8
  arb : Bool
  time : Nat
  deriving DecidableEq, Repr

/-- The IEEE 1588 messages the module sends (R67, R69, R70); every Sync is one-step. -/
inductive Ptp where
  | sync (logInterval : Int)
  | announce (logInterval : Int) (timeout : BitVec 8) (priority1 : BitVec 8) (clockClass : BitVec 8)
  | delayResp (ident : BitVec 80) (sequence : BitVec 16)
  deriving DecidableEq, Repr

/-- The far end of a session (R274): management, field, Hawser and local paths. -/
inductive Client where
  | udp (ip : BitVec 128) (port : BitVec 16)
  | field (port : Fin 4) (node : Word)
  | peer (unit : Bool)
  | own
  deriving DecidableEq, Repr

/-- What the module hands to a line or to a client. -/
inductive Tx where
  | lst (line : Line) (f : Lst)
  | ptp (line : Line) (h : PtpHead) (m : Ptp)
  | svc (dest : Client) (msg : Octets)
  deriving DecidableEq, Repr

/-! ## The net -/

/-- The three words of a point declaration (R94). -/
structure Decl where
  w0 : Word
  w1 : Word
  w2 : Word
  deriving DecidableEq, Repr

/-- An occurrence of a function block: the record of R95. -/
structure Inst where
  op : BitVec 9
  ins : List Word
  outs : List Word
  pars : List Word
  deriving DecidableEq, Repr

/-- A Manifest as a die holds it (R92 to R99, R149, R150): the words of its sections, with section 2 kept as the declared
points in index order and section 4 as its records. -/
structure Net where
  head : List Word
  sec1 : List Word
  decls : List (Nat × Decl)
  sec3 : List Word
  insts : List Inst
  levels : List Nat
  sec6 : List Word
  sec7 : List Word
  sec8 : List Word
  digest : Octets
  deriving DecidableEq, Repr

/-- A batch of the translated form (R151): up to 32 occurrences of one level that share an opcode and a count of inputs. Array
k holds word k of their records, one lane beside the other. -/
structure Batch where
  level : Nat
  op : Nat
  nin : Nat
  idxs : List Nat
  arrays : List (List Word)
  deriving DecidableEq, Repr

/-- A binary operand as a block remembers it: unknown, or known with its value. -/
abbrev Prev := Option Bool

/-- The state an occurrence keeps between tides (R125 to R145). Counts are bounded by their parameters (R123). -/
inductive IState where
  | none
  | ton (et : Nat) (prev1 : Bool)
  | tof (et : Nat)
  | pulse (rm : Nat) (known prev : Bool)
  | flash (ph : Nat) (flashing fail seen1 seen0 : Bool) (bad : Nat)
  | latch (st : Bool)
  | restart (rel stuck armed void : Bool) (len : Nat)
  | edge (prev : Prev)
  | pair (dc : Nat) (disc : Bool) (ps : Nat) (prev1 : Bool)
  | window (g : Nat) (st : Bool)
  | lamp (hist : List Prev) (b g : Nat) (ok : Bool)
  | heat (hist : List Prev) (b g tc lk nt : Nat) (ok : Bool)
  | axpwr (trip : Bool) (tc since : Nat) (pwr : Bool) (rst : Prev)
  | cross (st c ph : Nat)
  | count (c : Nat) (ovf : Bool) (cnt rst : Prev)
  | safeout (test : Bool)
  deriving DecidableEq, Repr

/-! ## Gangway and intake -/

/-- The entry of a close list: the node, the copy used and its payload (R51). -/
structure CloseEnt where
  node : Nat
  copy : Nat
  port : Fin 4
  lane : Lane
  payload : Octets
  deriving DecidableEq, Repr

/-- Frames on the Gangway (R25, R51, R166, R167, R329). -/
inductive GwFrame where
  | heartbeat (num : Tide) (crc : BitVec 32)
  | aVerdict (copy : Nat) (pass : Bool)
  | landing (e : CloseEnt)
  | closeMarker (num : Tide)
  | sigs (k : Nat) (vals : List (BitVec 32))
  | digest (d : Octets)
  | verdict (os : Octets)
  | degrade (gs : GSet)
  deriving DecidableEq, Repr

/-- What the B-die's tap keeps of received frames (R106): the tide in which the first of them came, and their payload. -/
structure Tap where
  since : Tide
  octets : Octets
  deriving DecidableEq, Repr

/-- A copy one die has checked: its number, where it arrived, and the telegram as that die parsed it; of a landed copy the
A-die's, with what the B-die's tap keeps of it. -/
structure RxCopy where
  copy : Nat
  port : Fin 4
  lane : Lane
  f : Lst
  tap : Option Tap := .none
  deriving DecidableEq, Repr

/-- The duplicate window of one key (R226): highest accepted value and the acceptance record of the 64 values up to it. -/
structure DupWin where
  src : Word
  kind : BitVec 4
  unit : Bool
  high : BitVec 45
  seen : BitVec 64
  deriving DecidableEq, Repr

/-- A service message being put together (R224). -/
structure Assembly where
  src : Client
  tag : Byte
  since : Tide
  parts : List (Nat × Octets × Option Tap)
  last : Option Nat
  deriving DecidableEq, Repr

/-- Whose frames the rate check counts together (R217): each die's own copies, of a node, on a lane of a port. -/
structure RateKey where
  die : Die
  port : Fin 4
  lane : Lane
  node : Nat
  deriving DecidableEq, Repr

/-- The intake of a tide (R51 to R54, R156, R158, R217, R226). -/
structure Intake where
  nextCopy : Nat := 0
  aCopies : List RxCopy := []
  bCopies : List RxCopy := []
  bClosed : Bool := false
  closeB : List CloseEnt := []
  prevB : List CloseEnt := []
  noticesA : List CloseEnt := []
  closeA : List CloseEnt := []
  held : List RxCopy := []
  dups : List DupWin := []
  /-- SERVICE and ENROL frames of a node on a lane of a port in this tide, as each die has them (R217). -/
  rate : List (RateKey × Nat) := []
  landedSvc : List RxCopy := []
  landedEnrol : List RxCopy := []
  asm : List Assembly := []
  basis : List CloseEnt := []
  deriving DecidableEq, Repr

/-! ## A die -/

/-- What each die holds of its own (Channel A on the A-die, Channel B on the B-die). -/
structure DieState where
  net : Option Net := .none
  committed : List (Nat × Word) := []
  working : List (Nat × Word) := []
  inst : List IState := []
  shadow : List IState := []
  lastOps : List (Option (List Word)) := []
  evaluated : List Nat := []
  armed : Bool := false
  /-- The occurrences have kept their state over a reload of the tables and are armed with it after the proof (R177). -/
  kept : Bool := false
  overlay : GSet := BitVec.allOnes 512
  overlayAll : Bool := true
  sigs : List (BitVec 32) := []
  dig : Octets := []
  otherSigs : List (Nat × List (BitVec 32)) := []
  otherDig : Option Octets := .none
  sigDeadline : Bool := false
  verdictMoor : Bool := false
  /-- The die's own verdict would have listed more than 15 groups (R167). -/
  many : Bool := false
  verdict : List (BitVec 9) := []
  otherVerdict : Option (Bool × List (BitVec 9)) := .none
  otherDegrade : Option GSet := .none
  degrade : GSet := 0
  degradeNext : GSet := 0
  found : GSet := 0
  final : GSet := 0
  finalMoor : Bool := false
  /-- The final moor set of the tide is formed (R168). -/
  formed : Bool := false
  finalCrc : BitVec 32 := 0
  mooring : Bool := true
  bell : Bool := false
  bellRun : Bool := false
  inReset : Bool := true
  dropped : Nat := 0
  deriving DecidableEq, Repr

/-! ## Blocks of the A-die -/

/-- The TIDE block (R75, R78). -/
structure TideBlk where
  per : BitVec 3 := 2
  running : Bool := false
  num : Tide := 0
  bNum : Tide := 0
  cnum : Tide := 0
  ph : BitVec 3 := 0
  tick : BitVec 12 := 0
  aDone : Bool := false
  bDone : Bool := false
  closed : Bool := false
  cfence : Bool := false
  twoff : Word := 0
  snapNum : Word := 0
  snapCnum : Word := 0
  perNext : Option (BitVec 3 × Tide) := .none
  budget : List (BitVec 16) := List.replicate 8 0
  deriving DecidableEq, Repr

/-- The event registers of one block (R316). -/
structure EvBlock where
  src : BitVec 16 := 0
  parerr : Bool := false
  mask : BitVec 16 := 0
  sevL : Word
  sevH : Word
  nextL : Option Word := .none
  nextH : Option Word := .none
  fSev : BitVec 2 := 0
  fConseq : Bool := false
  fSrc : BitVec 8 := 0o377
  fTide : Tide := 0
  fTick : BitVec 12 := 0
  snapTide : Tide := 0
  snapTick : BitVec 12 := 0
  last : List (Option Tide) := List.replicate 16 .none
  /-- The tide in which each STAT bit last went from 0 to 1 (R350). -/
  since : List (Option Tide) := List.replicate 16 .none
  deriving DecidableEq, Repr

/-- The event registers of block b at reset: default severities (R318), FIRST none (R316). -/
def EvBlock.initial (b : Nat) : EvBlock :=
  { sevL := Config.sevWord b false, sevH := Config.sevWord b true }

/-- The moor sets (R304, R329 to R337) and the changes that wait for their boundary or fence. -/
structure MoorSt where
  cmdG : GSet := 0
  cmdM : Bool := false
  /-- What a unit in Resync has adopted of the Leader's commanded set, beside its own (R249, R255, log 49). -/
  adG : GSet := 0
  adM : Bool := false
  faultG : GSet := 0
  faultM : Bool := false
  startup : Bool := true
  addG : GSet := 0
  addM : Bool := false
  remG : GSet := 0
  remM : Bool := false
  /-- What an UNMOOR_REQUEST ends of the fault moorings that were in force when it executed (R304, R335, R336). -/
  remFG : GSet := 0
  remFM : Bool := false
  qAddG : GSet := 0
  qAddM : Bool := false
  qRemG : GSet := 0
  qRemM : Bool := false
  qRemFG : GSet := 0
  qRemFM : Bool := false
  pendM : Bool := false
  toA : Bool := false
  toB : Bool := false
  exchanged : Bool := false
  newG : GSet := 0
  /-- The groups of the tide's comparison findings (R329): fault-moored at the fence, sent to the other die in the verdict. -/
  cmpG : GSet := 0
  newM : Bool := false
  gSrc : List (Nat × Nat) := []
  mSrc : List Nat := []
  entries : List (Nat × Tide) := []
  moorFrameAt : Option Tide := .none
  moorFrameDue : Bool := false
  deriving DecidableEq, Repr

/-- EVA's own registers and the class-N write port (R180, R37). -/
structure EvaBlk where
  raen : Bool := true
  raenNow : Bool := true
  swap : Bool := false
  cones : Bool := false
  ra : Bool := false
  bank : Bool := false
  cancel : Word := 0
  recomp : Word := 0
  cancelNow : Word := 0
  recompNow : Word := 0
  nwIdx : Word := 0
  nwNext : Bool := false
  nwRes : BitVec 2 := 0
  nwThis : List (Nat × BitVec 12) := []
  nwLater : List (Nat × BitVec 12) := []
  nwVal : List (Nat × BitVec 12) := []
  prov : List (Nat × BitVec 2 × Bool) := []
  /-- The translated form (R151). -/
  batches : List Batch := []
  /-- The nodes whose cones the cone table holds (R152). -/
  coneNodes : List Nat := []
  deriving DecidableEq, Repr

/-- A port engine FPE_n (R237). -/
structure Port where
  presA : Bool := false
  presB : Bool := false
  upA : Bool := false
  upB : Bool := false
  rxA : Bool := false
  rxB : Bool := false
  rxNowA : Bool := false
  rxNowB : Bool := false
  late : Word := 0
  oot : Word := 0
  siga : Word := 0
  sigb : Word := 0
  sigbLive : Word := 0
  hdr : Word := 0
  dup : Word := 0
  cdiv : Word := 0
  tdiv : Word := 0
  txc : Word := 0
  txNow : Word := 0
  queueA : List Lst := []
  queueB : List Lst := []
  /-- SERVICE and ENROL frames that a guard phase held over (R225). -/
  held : List Lst := []
  deriving DecidableEq, Repr

/-- What the module keeps of one node (R230, R239). -/
structure NodeRec where
  enrolled : Bool := false
  enrolAt : Option Tide := .none
  status : BitVec 16 := 0
  lastTide : Tide := 0
  absent : BitVec 24 := 0
  cdiv : BitVec 16 := 0
  tdiv : BitVec 16 := 0
  typ : BitVec 32 := 0
  serial : BitVec 48 := 0
  offerAt : Option Tide := .none
  wantOffer : Bool := false
  unanswered : Nat := 0
  slow : Bool := false
  /-- The last offer waits for its answer (R230). -/
  waiting : Bool := false
  reenrol : Bool := false
  withdraw : Bool := false
  deriving DecidableEq, Repr

/-- Enrolment of the whole zone (R231, R232). -/
structure EnrolSt where
  since : Tide := 0
  withdrawTo : Option Tide := .none
  offersFrom : Option Tide := .none
  deriving DecidableEq, Repr

/-- The twin roles, with the codes of TWIN_ROLE (R264). -/
inductive Role where
  | solo
  | leader
  | follower
  | isoSending
  | isoSilent
  | resync
  deriving DecidableEq, Repr

/-- The HWS block and what a unit keeps of its pair (R240 to R266). -/
structure TwinSt where
  role : Role := .resync
  roleNext : Option (Role × BitVec 8) := .none
  unitId : BitVec 6 := 0
  presA : Bool := false
  presB : Bool := false
  upA : Bool := false
  upB : Bool := false
  hbA : Bool := false
  hbB : Bool := false
  /-- A heartbeat that carries the tide in progress has landed on the lane (R259). -/
  hbOnA : Bool := false
  hbOnB : Bool := false
  hbPrevA : Bool := false
  hbPrevB : Bool := false
  missA : Nat := 0
  missB : Nat := 0
  hbMissA : Word := 0
  hbMissB : Word := 0
  mirMiss : Word := 0
  wheld : Word := 0
  gdiff : Word := 0
  adopt : Bool := false
  f0 : Bool := false
  nfr : BitVec 5 := 0
  peer : Octets := []
  peerTide : Tide := 0
  hold : BitVec 9 := 0o074
  holdSince : Tide := 0
  health : List (BitVec 40) := List.replicate 6 0
  nodes4 : List (BitVec 16) := List.replicate 4 0
  groupDiff : GSet := 0
  /-- For how many consecutive tides each group has differed from the Leader (R263). -/
  diffRun : List (Nat × Nat) := []
  resyncCnt : Word := 0
  segs : BitVec 16 := 0
  resyncHb : Nat := 0
  stalled : Bool := false
  noLeader : Nat := 0
  noPeer : Nat := 0
  /-- A Leader heartbeat has landed in the tide in progress (R262). -/
  leaderNow : Bool := false
  /-- The heartbeat is lost: what the loss does to the role has been decided, or R260 is at it. -/
  lost : Bool := false
  inputSeen : Bool := false
  unsettled : Option Nat := .none
  seenOff : Nat := 0
  seenOn : Nat := 0
  mirA : List (Nat × Octets) := []
  mirB : List (Nat × Octets) := []
  mirList : List Nat := []
  mirOk : Bool := false
  /-- The mirror of the tide has been judged (R249). -/
  mirChecked : Bool := false
  /-- Mirror frames that leave by the end of the mirroring phase (R58, R248). -/
  mirQueue : List Tx := []
  /-- The nodes a Leader offers in this tide, with W (R248, R254). -/
  offers : Option (List (Nat × Bool)) := .none
  /-- Frame 0 has landed before emission start in this tide. -/
  f0Now : Bool := false
  wheldNow : Word := 0
  hbWins : List DupWin := []
  cop : BitVec 8 := 0
  copLeft : Nat := 0
  ctide : Tide := 0
  cdigest : Octets := List.replicate 32 0
  cconf : Bool := false
  cref : Bool := false
  pper : BitVec 3 := 0
  ptide : Tide := 0
  deriving DecidableEq, Repr

/-- A running output test (R195, R196). -/
structure OutTest where
  q : Fin 16
  bright : Bool
  sw : Die
  passed : Bool
  failed : Bool
  deriving DecidableEq, Repr

/-- The test history of one output (R206). -/
structure OutHist where
  lastA : Tide := 0
  lastB : Tide := 0
  fails : BitVec 16 := 0
  retest : Option Die := .none
  /-- The first failure of each switch within the last 4,096 tides, and the switch that failed last (R197). -/
  failA : Option Tide := .none
  failB : Option Tide := .none
  failSw : Option Die := .none
  /-- The switch that a failed dark test of the other one has opened, until the CLEAR of source 103 (R196). -/
  openSw : Option Die := .none
  deriving DecidableEq, Repr

/-- The LIO and TPG blocks (R184 to R206). -/
structure LioSt where
  inA : BitVec 32 := 0
  inB : BitVec 32 := 0
  flt : BitVec 32 := 0
  fltNext : BitVec 32 := 0
  cmdA : BitVec 16 := 0
  cmdB : BitVec 16 := 0
  wantA : BitVec 16 := 0
  wantB : BitVec 16 := 0
  rbA : BitVec 16 := 0
  rbB : BitVec 16 := 0
  qovl : BitVec 16 := 0
  qflt : BitVec 16 := 0
  /-- What LIO.QOVL and LIO.QFLT show, as of the last intake close (R203). -/
  regOvl : BitVec 16 := 0
  regFlt : BitVec 16 := 0
  applied : BitVec 16 := 0
  switching : List Nat := List.replicate 16 0
  marked : BitVec 16 := 0
  vsupA : Word := 0
  vsupB : Word := 0
  tAct : Bool := false
  tKind : BitVec 2 := 0
  tSw : Bool := false
  tRes : BitVec 2 := 0
  tQn : BitVec 4 := 0
  tEndTide : Option Tide := .none
  tests : List OutTest := []
  hist : List OutHist := List.replicate 16 {}
  disc : List Nat := List.replicate 32 0
  agree : List Nat := List.replicate 32 4
  feedPass : List Nat := List.replicate 8 0
  pulseA : BitVec 32 := 0
  pulseB : BitVec 32 := 0
  pulse : Option Nat := .none
  onAgainst : List Nat := List.replicate 16 0
  offAgainst : List Nat := List.replicate 16 0
  onAgainstB : List Nat := List.replicate 16 0
  offAgainstB : List Nat := List.replicate 16 0
  split : List Nat := List.replicate 16 0
  linkLost : Nat := 0
  linkDown : Bool := false
  uvA : Nat := 0
  uvB : Nat := 0
  /-- Front end B's own counts of the two supplies (R200). -/
  uvA2 : Nat := 0
  uvB2 : Nat := 0
  ovA2 : Nat := 0
  ovB2 : Nat := 0
  ovA : Nat := 0
  ovB : Nat := 0
  offA : Nat := 0
  offB : Nat := 0
  tpgOvl : BitVec 8 := 0
  tpgAct : BitVec 8 := 0
  isens : Word := 0
  inWords : List (Nat × Word) := []
  /-- The T_n feeds are lit and the sensor supplies on (R187, R397). -/
  lit : Bool := false
  sens : Bool := false
  deriving DecidableEq, Repr

/-! ## Sessions and the dictionary -/

/-- A REQUEST as read from its body (R281). `bad` is a form error (status 0x10). -/
structure Req where
  op : Byte
  fence : Bool
  idx : Bool
  rid : BitVec 4
  rn : BitVec 16
  entry : BitVec 24
  index : BitVec 24
  data : Octets
  bad : Bool
  deriving DecidableEq, Repr

/-- How far a request has come (R282, R285, R287, R293). -/
inductive SlotSt where
  | waiting
  | inForceAt (tx ift : Tide)
  | seizing
  | burning (tx : Tide)
  | done
  deriving DecidableEq, Repr

/-- A request slot of a session: the last request of its RID, its CNT, its progress, the stored response body, and what the B-die's
tap keeps of the frames that carried it (R106). -/
structure Slot where
  req : Req
  cnt : BitVec 32
  st : SlotSt
  ift : Tide
  resp : Octets
  tap : Option Tap := .none
  deriving DecidableEq, Repr

/-- A subscription (R289). -/
structure Sub where
  num : BitVec 8
  entry : Word
  index : Word
  period : BitVec 16
  since : Tide
  lastVal : Octets
  deriving DecidableEq, Repr

/-- A session (R274 to R280). -/
structure Session where
  level : BitVec 2
  client : Client
  nc : BitVec 64
  nm : BitVec 64
  rxHigh : BitVec 32
  rxSeen : BitVec 32
  txCnt : BitVec 32
  last : Tide
  slots : List (Option Slot)
  subs : List Sub
  /-- Executed writes, by CNT, with the tide from which each is in force (R287). -/
  writes : List (BitVec 32 × Tide)
  notes : List Octets
  /-- NOTIFY bodies that wait for a free place in the queue (R290). -/
  late : List Octets
  deriving DecidableEq, Repr

/-- A message that passed its checks and waits to be handled (R274, R276, R279). -/
structure InMsg where
  ses : Option (Fin 8)
  client : Client
  typ : BitVec 4
  level : BitVec 2
  cnt : BitVec 32
  body : Octets
  tap : Option Tap := .none
  deriving DecidableEq, Repr

/-- A service message, or a SERVICE payload of one, on its way out (R224, R225); `note` names the session whose NOTIFY leaves with
it (R290). -/
structure OutMsg where
  dest : Client
  octets : Octets
  note : Option (Fin 8)
  deriving DecidableEq, Repr

/-- The Helm (R291 to R294). -/
structure HelmSt where
  holder : Option (Fin 8) := .none
  leaseEnd : Tide := 0
  seizer : Option (Fin 8) := .none
  seizeRid : BitVec 4 := 0
  noticeEnd : Tide := 0
  deriving DecidableEq, Repr

/-- A request the partition posted, as FENCE.DICT follows it (R360). -/
structure Posted where
  path : Bool
  ses : BitVec 3
  rid : BitVec 4
  rn : BitVec 16
  since : Tide
  ift : Option Tide
  gaveUp : Bool
  deriving DecidableEq, Repr

/-- The SVC block, the sessions and the Helm (R274 to R299). -/
structure SvcSt where
  ses : List (Option Session) := List.replicate 8 .none
  helm : HelmSt := {}
  authFail : BitVec 36 := 0
  inbox : List InMsg := []
  txoff : BitVec 17 := 0
  txlen : BitVec 11 := 0
  rxbase : BitVec 17 := 0
  rxsize : BitVec 17 := 0
  rxhead : BitVec 17 := 0
  rxtail : BitVec 17 := 0
  busy : Bool := false
  rxovr : Bool := false
  txerr : Bool := false
  posted : List Posted := []
  /-- The path whose word was uncorrectable when SVC was last reset (R298). -/
  failPath : BitVec 2 := 0
  /-- Messages for the partition that wait to be written into the receive ring (R297), oldest first; true for one of the
  other unit's service. -/
  ringIn : List (Bool × Octets) := []
  outQ : List OutMsg := []
  /-- SERVICE payloads that wait for an emission phase (R224, R225). -/
  frags : List OutMsg := []
  tag : Byte := 0
  deriving DecidableEq, Repr

/-- Dictionary values that no block holds: protection table, level keys, kept copies, last accepted writes (R269 to R275,
R304, R310, R315). -/
structure DictSt where
  prot : List (Nat × Byte) := []
  protNext : List (Nat × Octets) := []
  keys : List (Option Octets) := [.none, .none, .none, .none]
  keysNext : List (Nat × Octets) := []
  lastUnmoor : Octets := List.replicate 65 0
  lastCommit : Octets := List.replicate 32 0
  keptSince : Option Tide := .none
  storeSeq : Tide := 0
  commitBy : Option (Fin 8 × BitVec 32) := .none
  deriving DecidableEq, Repr

/-! ## Manifest management -/

/-- The net stimulus of an equivalence proof in progress (R171 to R176). -/
structure ProofSt where
  /-- The net as Channel A's batches give it, and the batches. -/
  netA : Net
  batches : List Batch
  netB : Net
  /-- The occurrences of the net or slice under proof: all of them at start-up, those of the touched groups in a staged
  proof whose delta fits the buffer (R175, R176). -/
  idxs : List Nat
  /-- The slices that follow. -/
  rest : List (List Nat)
  step : Nat
  lfsr : BitVec 32
  pts : List (Nat × Word)
  instA : List IState
  instB : List IState
  wordsA : List (Nat × Word)
  wordsB : List (Nat × Word)
  /-- The number of the slice in hand. -/
  slice : Nat
  /-- The tide of the last steps, and how many it has seen. -/
  inTide : Tide
  ran : Nat
  /-- The steps whose signatures have not crossed the Gangway, with what both channels computed (R176). -/
  sent : List (Nat × BitVec 32 × BitVec 32)
  deriving DecidableEq, Repr

/-- The Manifest entries, the stage and a commit in progress (R105 to R116, R176 to R178, R310). -/
structure ManSt where
  slot : BitVec 9 := 2
  seq : Tide := 0
  active : Octets := List.replicate 32 0
  enrolledDig : Octets := List.replicate 32 0
  reason : BitVec 9 := 0
  checkA : Byte := 0
  checkB : Byte := 0
  stage : BitVec 4 := 0
  stageReason : BitVec 9 := 0
  afterErase : BitVec 4 := 0
  stageDig : Octets := List.replicate 32 0
  touch : GSet := 0
  big : Bool := false
  netchg : Bool := false
  fromLoad : Bool := false
  staged : Option Net := .none
  stagedB : Option Net := .none
  proof : Option ProofSt := .none
  /-- The batches that the proof of the stage has covered (R177). -/
  batches : List Batch := []
  commitAt : Tide := 0
  /-- The in-force tide that the commit records forecast (R110). -/
  commitTide : Tide := 0
  commitSeq : Tide := 0
  confirmed : Bool := false
  forceAt : Option Tide := .none
  swapDone : Bool := false
  rebuildSince : Option Tide := .none
  deriving DecidableEq, Repr

/-! ## CORE and partition, timers, check engines -/

/-- The CORE window, the partition and what a bus access returned (R31 to R39, R307, R360). -/
structure CoreSt where
  pbase : List Word := List.replicate 8 0
  plim : List Word := List.replicate 8 0
  prgt : List (BitVec 4) := List.replicate 8 0
  fbase : List Word := List.replicate 8 0
  flim : List Word := List.replicate 8 0
  frgt : List (BitVec 4) := List.replicate 8 0
  fkind : BitVec 3 := 0
  flt : Bool := false
  pend : Bool := false
  pfa : BitVec 24 := 0
  part : BitVec 2 := 0
  faultTide : Tide := 0
  partFkind : BitVec 3 := 0
  partAddr : BitVec 24 := 0
  fenceReg : Option (BitVec 8) := .none
  gpr : List (Nat × Word) := []
  busData : Word := 0
  busErr : Bool := false
  deriving DecidableEq, Repr

/-- A timer (R340 to R349). -/
structure Timer where
  ctrl : Word := 0o200000
  out : Bool := false
  arm : Bool := false
  ovr : Bool := false
  capf : Bool := false
  cmpf : Bool := false
  wrap : Bool := false
  cnt : Word := 0
  per : Word := 0o777777
  cmp : Word := 0
  cap : Word := 0
  capsel : Word := 0
  ecnt : BitVec 8 := 0
  eps : BitVec 8 := 0
  slv : Word := 0
  stCnt : Option Word := .none
  stCmp : Option Word := .none
  snapCntE : Word := 0
  snapCntP : Word := 0
  snapCapE : Word := 0
  snapCapP : Word := 0
  deriving DecidableEq, Repr

/-- The master events of R347. -/
inductive TimEv where
  | compare
  | wrap
  | capture
  deriving DecidableEq, Repr

/-- The TIM block (R340, R349). -/
structure TimSt where
  t : List Timer := List.replicate 16 {}
  halt : Bool := false
  heldGo : BitVec 16 := 0
  heldHalt : BitVec 16 := 0
  todo : List (Nat × TimEv) := []
  /-- The OUT levels as the capture inputs have last seen them (R344). -/
  seen : BitVec 16 := 0
  deriving DecidableEq, Repr

/-- A check engine (R351 to R357). -/
structure Chk where
  ctrl : BitVec 3 := 0
  poly : BitVec 2 := 0
  reg : BitVec 32 := 0xFFFFFFFF
  exp : BitVec 32 := 0
  ini : BitVec 32 := 0
  cva : BitVec 24 := 0
  cvb : BitVec 24 := 0
  fed : Word := 0
  result : BitVec 3 := 0
  adr : Bool := false
  cvc : Bool := false
  mis : Bool := false
  snapH : BitVec 16 := 0
  deriving DecidableEq, Repr

/-! ## Fuses, power, recorder -/

/-- The fuse array of one die (R363 to R374). -/
structure FuseDie where
  lo : List (Nat × Word) := []
  hi : List (Nat × Word) := []
  shLo : List (Nat × Word) := []
  shHi : List (Nat × Word) := []
  weak : List (Nat × Word) := []
  sensed : Bool := false
  resense : Bool := false
  ovr : List (Nat × Word) := []
  ovrNext : List (Nat × Word) := []
  ovrClear : Bool := false
  pos : Nat := 0
  passAt : Tide := 0
  deriving DecidableEq, Repr

/-- A die's fuse array as delivered (log 6), before sensing. -/
def FuseDie.delivered (d : Die) : FuseDie :=
  { lo := Config.fuseFactory (d == .A), hi := Config.fuseFactory (d == .A) }

/-- The burning command that runs: what is burned, at which word and bits (R376, R377). -/
structure Burn where
  die : Die
  op : BitVec 3
  words : List (Nat × Word)
  via : FuseVia
  /-- Level, path and request of the FUSE_PROGRAM write, whose DICT record is made when it completes (R411). -/
  asked : Option (Nat × Nat × Req) := .none
  /-- A reset of the die has cut the burn off (R398). -/
  cut : Bool := false
  deriving DecidableEq, Repr

/-- FUS: both dies' arrays and the programming registers (R379, R380). -/
structure FusSt where
  a : FuseDie := FuseDie.delivered .A
  b : FuseDie := FuseDie.delivered .B
  paddr : Word := 0
  pdata : Word := 0
  busy : Bool := false
  res : BitVec 3 := 0
  pulses : BitVec 6 := 0
  reason : BitVec 4 := 0
  burn : Option Burn := .none
  /-- The module has come to state Running since its start, and the tide of the last re-sensed words (R370). -/
  ran : Bool := false
  doneAt : Option Tide := .none
  entRes : Octets := [0, 0, 0]
  deriving DecidableEq, Repr

/-- PWS: stages, feeds, hold-up, reset contact (R381 to R391, R403, R404). -/
structure PwsSt where
  sa : BitVec 3 := 0
  sb : BitVec 3 := 0
  fokA : Bool := false
  fokB : Bool := false
  dcA : Bool := false
  dcB : Bool := false
  hold : Bool := false
  seqEnded : Bool := false
  stbt : Bool := false
  rstPend : Bool := false
  rstClosed : Bool := false
  rstHeld : Bool := false
  vfa : Word := 0
  vfb : Word := 0
  ia : Word := 0
  ib : Word := 0
  vbus : Word := 0
  tRes : BitVec 2 := 0
  tStg : Bool := false
  tAge : BitVec 15 := 0
  tMs : Nat := 0
  outA : Option Tide := .none
  outB : Option Tide := .none
  testReq : Bool := false
  rsth : Word := 0
  longHolds : BitVec 16 := 0
  longNow : Bool := false
  longReport : Bool := false
  cause : Byte := 0
  nextCause : Byte := 1
  firstTide : Tide := 0
  takeoverAt : Option Tide := .none
  /-- The dies are released (R392); an island supervisor may still hold one (R26). -/
  released : Bool := false
  railA : Bool := false
  railB : Bool := false
  deriving DecidableEq, Repr

/-- REC (R405 to R419). Records are 16 octets; a record and its continuations form one group. -/
structure RecSt where
  queue : List (List Octets) := []
  pages : List (Nat × Octets) := []
  newest : Option Tide := .none
  newPos : Nat := 0
  oldest : Tide := 0
  oldPos : Nat := 0
  latchNew : Word := 0
  latchOld : Word := 0
  drop : Word := 0
  dropNow : Nat := 0
  usable : Nat := 32000
  reserve : Nat := 768
  retired : Nat := 0
  erases : List (Nat × Nat) := []
  flush : Bool := false
  flushOp : Byte := 0
  flinc : Bool := false
  checkPos : Nat := 0
  /-- The tide of the last page read again (R407). -/
  checkAt : Option Tide := .none
  chain : Octets := List.replicate 32 0
  lastProg : Tide := 0
  latest : Tide := 0
  deriving DecidableEq, Repr

/-- The start-up steps and the running states (R302, R392). `live` stands for every state from the end of Enrol on, of
which MODULE_STATE shows one by R302. -/
inductive Mode where
  | off
  | fuseRead
  | selfTest
  | load
  | translate
  | enrol
  | live
  | halted
  deriving DecidableEq, Repr

/-- The Bell relay driver and contact (R332). -/
structure BellRelay where
  relay : Bool := false
  bcon : Bool := false
  edgesA : Nat := 0
  edgesB : Nat := 0
  /-- Each Bell has made an edge at the last tide start. -/
  edgeA : Bool := false
  edgeB : Bool := false
  deriving DecidableEq, Repr

/-- Translate and prove as far as it has come (R175): since when, when translation ends, when the opcode vectors have run, the
net stimulus, and the result: 0 for a passed proof, else what EVA source 31 records. -/
structure TransProve where
  since : Tide
  translated : Tide
  proofFrom : Tide
  proof : Option ProofSt
  result : Option (BitVec 32)
  deriving DecidableEq, Repr

/-- What a start-up step has reached, waiting for its tide boundary (R392). -/
structure StartSt where
  tp : Option TransProve := .none
  modeNext : Option Mode := .none
  bench : Bool := false
  benchNext : Option Bool := .none
  restart : Bool := false
  toLive : Bool := false
  deriving DecidableEq, Repr

/-- Scrubbing positions and the corrected words the B-die counted (R21, R322 source 46). -/
structure ScrubSt where
  data : Nat := 0
  instr : Nat := 0
  declA : Nat := 0
  table : Nat := 0
  declB : Nat := 0
  ce : List (Tide × Nat) := []
  deriving DecidableEq, Repr

/-- The LX-4218. -/
structure State where
  pending : List Instr := []
  mode : Mode := .off
  start : StartSt := {}
  tide : TideBlk := {}
  ev : List EvBlock := (List.range 18).map EvBlock.initial
  evb : EvBlock := EvBlock.initial 3
  evbRegs : List Word := []
  settle : List (RstUnit × Tide) := []
  resets : List (RstUnit × Tide) := []
  moor : MoorSt := {}
  a : DieState := {}
  b : DieState := {}
  ab : List GwFrame := []
  ba : List GwFrame := []
  intake : Intake := {}
  eva : EvaBlk := {}
  ports : List Port := List.replicate 4 {}
  nodes : List NodeRec := []
  enrol : EnrolSt := {}
  twin : TwinSt := {}
  lio : LioSt := {}
  svc : SvcSt := {}
  dict : DictSt := {}
  man : ManSt := {}
  norA : List Host.Cell := []
  norB : List Host.Cell := []
  core : CoreSt := {}
  mem : List (Nat × Word) := []
  /-- The flipped cells of the 24-bit rows of both dies' memories (R20): none for a row not listed. -/
  rows : List (Nat × BitVec 24) := []
  tim : TimSt := {}
  chk : List Chk := List.replicate 4 {}
  fus : FusSt := {}
  pws : PwsSt := {}
  rcd : RecSt := {}
  bells : BellRelay := {}
  scrub : ScrubSt := {}
  tx : List Tx := []
  draws : Nat := 0
  deriving DecidableEq, Repr

/-- The module right after reset: unfed, Off, every register at its reset value (R13), the queue empty. -/
def State.reset : State := {}

end Sys2Proof.Machine
end

