-- ==== Sys2Proof/Machine/Manifest.lean ====
section
/-!
DEFINITION. Manifests: reading one from a NOR slot (R90 to R100), what its sections say, the checks that load and CLOSE
apply (R101, R102, R107, R436), and the touch computation of a commit (R108, R113).
-/

namespace Sys2Proof.Machine

/-! ## Declarations (R94) -/

def Decl.cls (d : Decl) : Nat := fld d.w0 17 16
def Decl.kind (d : Decl) : Nat := fld d.w0 15 14
def Decl.ana (d : Decl) : Bool := d.w0.getLsbD 13
def Decl.recd (d : Decl) : Bool := d.w0.getLsbD 12
def Decl.safe (d : Decl) : Nat := fld d.w0 11 0
def Decl.isLocal (d : Decl) : Bool := d.w1.getLsbD 17
def Decl.smode (d : Decl) : Nat := fld d.w1 16 15
def Decl.source (d : Decl) : Nat := fld d.w1 12 0
def Decl.frate (d : Decl) : Nat := fld d.w2 17 11
def Decl.slot (d : Decl) : Nat := fld d.w2 9 0

/-- An undeclared point's words (R94). -/
def Decl.undeclared : Decl := ⟨0, 0, 0⟩

/-- The declaration of a point in a net; three zero words when the net does not declare it. -/
def Net.decl (n : Net) (p : Nat) : Decl := cellGet Decl.undeclared n.decls p

/-- Whether the net declares a point. -/
def Net.declared (n : Net) (p : Nat) : Bool := (n.decl p).kind ≠ 0

/-- The declared safe value of a point. -/
def Net.safe (n : Net) (p : Nat) : Nat := (n.decl p).safe

/-! ## Occurrences and levels (R95, R96) -/

/-- Words of a record (R95). -/
def Inst.words (i : Inst) : List Word :=
  BitVec.ofNat 18 (i.op.toNat * 512 + i.ins.length * 32 + i.outs.length * 8 + i.pars.length) ::
    (i.ins ++ i.outs ++ i.pars)

/-- An occurrence that stands in no net. -/
def Inst.blank : Inst := ⟨0, [], [], []⟩

/-- The occurrence whose record some words hold, word 0 first (R95). -/
def instOfWords (ws : List Word) : Inst :=
  let w := ws.headD 0
  let t := ws.drop 1
  let nin := fld w 8 5
  let nout := fld w 4 3
  { op := BitVec.ofNat 9 (fld w 17 9), ins := t.take nin, outs := (t.drop nin).take nout,
    pars := (t.drop (nin + nout)).take (fld w 2 0) }

/-- The group an occurrence belongs to: that of its first output point (R95). -/
def Inst.group (i : Inst) : Nat := groupOf (i.outs.headD 0).toNat

/-- The n-th parameter. -/
def Inst.par (i : Inst) (n : Nat) : Nat := (i.pars.getD n 0).toNat

/-- The level of occurrence k by the level table (R96). -/
def Net.levelOf (n : Net) (k : Nat) : Nat := (n.levels.drop 1).countP (· ≤ k)

/-- Occurrence k of a net. -/
def Net.inst (n : Net) (k : Nat) : Inst := n.insts.getD k Inst.blank

/-- The occurrence that drives a point, with its index. -/
def Net.driver (n : Net) (p : Nat) : Option Nat :=
  n.insts.findIdx? fun i => i.outs.any fun o => o.toNat == p

/-- A class-N internal point that no occurrence drives (R81). -/
def Net.partSourced (n : Net) (p : Nat) : Bool :=
  let d := n.decl p
  d.kind = 3 && d.cls = 1 && (n.driver p).isNone

/-! ## Header and section 1 (R93, R234) -/

def Net.period (n : Net) : Nat := fld (n.head.getD 2 0) 2 0
def Net.nnode (n : Net) : Nat := (n.head.getD 10 0).toNat
def Net.nlevel (n : Net) : Nat := (n.head.getD 9 0).toNat
def Net.twin (n : Net) : Bool := (n.head.getD 11 0).getLsbD 0
def Net.etype (n : Net) : Nat := fld (n.sec1.getD 0 0) 15 0
def Net.vid (n : Net) : Nat := fld (n.sec1.getD 1 0) 11 0
def Net.domain (n : Net) : BitVec 8 := BitVec.ofNat 8 (fld (n.sec1.getD 2 0) 7 0)
def Net.zone (n : Net) : Word := n.sec1.getD 3 0
def Net.portUsed (n : Net) (p : Nat) : Bool := (n.sec1.getD (4 + p) 0).getLsbD 2
def Net.portOpt (n : Net) (p : Nat) (l : Lane) : Bool :=
  (n.sec1.getD (4 + p) 0).getLsbD (match l with | .A => 0 | .B => 1)
def Net.nodeWord (n : Net) (k i : Nat) : Word := n.sec1.getD (16 + 4 * k + i) 0
def Net.nodePort (n : Net) (k : Nat) : Nat := fld (n.nodeWord k 0) 17 16
def Net.nodeLoss (n : Net) (k : Nat) : Nat := fld (n.nodeWord k 0) 15 9
def Net.nodeType (n : Net) (k : Nat) : Nat := fld (n.nodeWord k 1) 15 0 * 65536 + fld (n.nodeWord k 2) 15 0

/-- The points of a node in slot order, inputs (kind 1) or outputs (kind 2): the node layout of R149. -/
def Net.slots (n : Net) (node kind : Nat) : List Nat :=
  let ps := n.decls.filter fun d => d.2.kind = kind && !d.2.isLocal && d.2.source = node
  (sortBy (fun x y => decide (x.2.slot ≤ y.2.slot)) ps).map (·.1)

/-- Bits of a field block (R213). -/
def Net.blockBits (n : Net) (ps : List Nat) : Nat :=
  ps.foldl (fun a p => a + if (n.decl p).ana then 14 else 2) 0

/-- Octets of a field block (R213). -/
def Net.blockLen (n : Net) (ps : List Nat) : Nat := (n.blockBits ps + 7) / 8

/-- LEN of a node's INPUT telegram (R218). -/
def Net.inputLen (n : Net) (node : Nat) : Nat := 2 + n.blockLen (n.slots node 1)

/-- The groups that hold a point of a node. -/
def Net.nodeGroups (n : Net) (node : Nat) : GSet :=
  gOf ((n.slots node 1 ++ n.slots node 2).map groupOf)

/-- The nodes section 1 places on a port. -/
def Net.portNodes (n : Net) (p : Nat) : List Nat := (List.range n.nnode).filter fun k => n.nodePort k = p

/-- The groups that hold a point of a node on a port (R238). -/
def Net.portGroups (n : Net) (p : Nat) : GSet :=
  (n.portNodes p).foldl (fun a k => a ||| n.nodeGroups k) 0

/-! ## Section 6 (R235) and section 7 (R243) -/

/-- A convoy record. -/
structure Convoy where
  port : Nat
  conv : Nat
  nent : Nat
  nodes : List Nat
  words : List Word
  deriving DecidableEq, Repr

/-- Read the convoy records. -/
def convoysFrom : Nat → List Word → List Convoy
  | 0, _ => []
  | k + 1, ws =>
    let r := ws.take 17
    let w := r.headD 0
    { port := fld w 17 16, conv := fld w 8 0, nent := fld w 15 11,
      nodes := (((r.drop 1).take (fld w 15 11)).map (·.toNat)), words := r } :: convoysFrom k (ws.drop 17)

def Net.convoys (n : Net) : List Convoy := convoysFrom (n.sec6.headD 0).toNat (n.sec6.drop 1)

/-- LEN of a convoy (R221). -/
def Net.convoyLen (n : Net) (c : Convoy) : Nat :=
  1 + c.nodes.foldl (fun a k => a + 3 + n.blockLen (n.slots k 2)) 0

/-- The groups of the output points a convoy carries (R253, R235). -/
def Net.convoyGroups (n : Net) (c : Convoy) : GSet :=
  c.nodes.foldl (fun a k => a ||| gOf ((n.slots k 2).map groupOf)) 0

def Net.nmir (n : Net) : Nat := u36 (n.sec7.getD 1 0) (n.sec7.getD 2 0)

/-- The mirrored occurrences in section 7 order (R243). -/
def Net.mirrored (n : Net) : List Nat :=
  (List.range n.nmir).map fun k => u36 (n.sec7.getD (3 + 2 * k) 0) (n.sec7.getD (4 + 2 * k) 0)

/-- Words of mirrored state by opcode (R244); 0 for an opcode that is not mirrored. -/
def mirrorWords (op : Nat) : Nat :=
  if op = 0o030 ∨ op = 0o031 ∨ op = 0o032 ∨ op = 0o021 ∨ op = 0o043 ∨ op = 0o044 then 1
  else if op = 0o020 ∨ op = 0o022 ∨ op = 0o023 ∨ op = 0o054 then 2 else 0

/-- Octets of the record stream (R245). -/
def Net.recordLen (n : Net) : Nat :=
  n.mirrored.foldl (fun a k => a + 3 + 3 * mirrorWords (n.inst k).op.toNat) 0

/-- Mirror data of one tide (R245). -/
def Net.mirrorSize (n : Net) : Nat := 2432 + n.recordLen

/-- The line option of a Hawser lane (R243): true for 1000BASE-X. -/
def Net.hopt (n : Net) (l : Lane) : Bool :=
  (n.sec7.headD 0).getLsbD (match l with | .A => 0 | .B => 1)

/-- A group that holds a point declared with LOCAL = 1 (R242). -/
def Net.localGroups (n : Net) : GSet := gOf ((n.decls.filter fun d => d.2.isLocal).map fun d => groupOf d.1)

/-! ## Section 3 (R201) -/

def Net.inPoint (n : Net) (t : Nat) : Option Nat :=
  if (n.sec3.getD (2 * t + 1) 0).getLsbD 17 then some (n.sec3.getD (2 * t) 0).toNat else none
def Net.inFeed (n : Net) (t : Nat) : Nat := fld (n.sec3.getD (2 * t + 1) 0) 3 0
def Net.outPoint (n : Net) (q : Nat) : Option Nat :=
  if (n.sec3.getD (64 + 2 * q + 1) 0).getLsbD 17 then some (n.sec3.getD (64 + 2 * q) 0).toNat else none
def Net.bright (n : Net) (q : Nat) : Bool := (n.sec3.getD (64 + 2 * q + 1) 0).getLsbD 4
def Net.testPeriod (n : Net) (q : Nat) : Nat := 2 ^ (fld (n.sec3.getD (64 + 2 * q + 1) 0) 3 0 + 2)
def Net.feedCode (n : Net) (f : Nat) : Nat := fld (n.sec3.getD (96 + 2 * f) 0) 3 0
def Net.feedPeriod (n : Net) (f : Nat) : Nat := 2 ^ (n.feedCode f + 2)
def Net.feedSlot (n : Net) (f : Nat) : Nat := fld (n.sec3.getD (96 + 2 * f + 1) 0) 9 0

/-- The groups of the used outputs in a set of terminals (R205). -/
def Net.outGroups (n : Net) (qs : List Nat) : GSet :=
  gOf (qs.filterMap fun q => (n.outPoint q).map groupOf)

/-! ## Reading a slot -/

/-- The octets of a NOR device that nothing has written or that are erased read 0xFF (log 5). -/
def norGet (nor : List Host.Cell) (a : Nat) : Byte := cellGet 0xFF nor a

/-- Offset of a Manifest slot (R28). -/
def slotBase (slot : Nat) : Nat := if slot = 0 then 0x1000000 else 0x4000000

/-- Word k of a slot, with single-bit errors corrected; none for an uncorrectable word (R90). -/
def norWord (nor : List Host.Cell) (base k : Nat) : Option Word :=
  eccDecode (BitVec.ofNat 24 (ofBe (cellGetN 0xFF nor (base + 3 * k) 3)))

/-- Words k to k + n - 1. -/
def norWords (nor : List Host.Cell) (base k n : Nat) : List (Option Word) :=
  (List.range n).map fun i => norWord nor base (k + i)

/-- A word whose value counts as 0 when it is uncorrectable (log 80): a digest or check judges such a word. -/
def norW (nor : List Host.Cell) (base k : Nat) : Word := (norWord nor base k).getD 0

/-- A U36 of two words. -/
def norU36 (nor : List Host.Cell) (base k : Nat) : Nat := u36 (norW nor base k) (norW nor base (k + 1))

/-- Offset and length of section i, 1 to 8 (R93). -/
def dirOff (nor : List Host.Cell) (base i : Nat) : Nat := norU36 nor base (16 + 4 * (i - 1))
def dirLen (nor : List Host.Cell) (base i : Nat) : Nat := norU36 nor base (18 + 4 * (i - 1))

/-- Read n records from word k (R95). -/
def recordsFrom (nor : List Host.Cell) (base : Nat) : Nat → Nat → List Inst
  | _, 0 => []
  | k, n + 1 =>
    let w := norW nor base k
    let nin := fld w 8 5
    let nout := fld w 4 3
    let npar := fld w 2 0
    let ws (i m : Nat) : List Word := (List.range m).map fun j => norW nor base (k + i + j)
    { op := BitVec.ofNat 9 (fld w 17 9), ins := ws 1 nin, outs := ws (1 + nin) nout,
      pars := ws (1 + nin + nout) npar } :: recordsFrom nor base (k + 1 + nin + nout + npar) n

/-- The words of n records from word k. -/
def recordsLen (is : List Inst) : Nat := is.foldl (fun a i => a + i.words.length) 0

/-- The Manifest digest (R91); none when a hashed word is uncorrectable (log 17). -/
def norDigest (nor : List Host.Cell) (base len : Nat) : Option Octets :=
  let ws := (List.range (len - 24)).map fun k => if 48 ≤ k ∧ k ≤ 63 then some 0 else norWord nor base k
  if ws.all Option.isSome then some (sha256 (wordsOct (ws.map (·.getD 0)))) else none

/-- A digest copy of 16 words; none when one of them is uncorrectable (R102). -/
def norDigestCopy (nor : List Host.Cell) (base k : Nat) : Option Octets :=
  let ws := norWords nor base k 16
  if ws.all Option.isSome then some (digestOfWords (ws.map (·.getD 0))) else none

/-- The sections of a slot as a net, with the digest given. -/
def netOf (nor : List Host.Cell) (base : Nat) (digest : Octets) : Net :=
  let w := norW nor base
  let sec (i : Nat) : List Word := (List.range (dirLen nor base i)).map fun j => w (dirOff nor base i + j)
  let o2 := dirOff nor base 2
  let pts := (List.range 262144).filterMap fun p =>
    let d : Decl := ⟨w (o2 + 3 * p), w (o2 + 3 * p + 1), w (o2 + 3 * p + 2)⟩
    if d = Decl.undeclared then none else some (p, d)
  { head := (List.range 64).map w, sec1 := sec 1, decls := pts, sec3 := sec 3,
    insts := recordsFrom nor base (dirOff nor base 4) (norU36 nor base 7),
    levels := (List.range ((w 9).toNat + 1)).map fun l => norU36 nor base (dirOff nor base 5 + 2 * l),
    sec6 := sec 6, sec7 := sec 7, sec8 := sec 8, digest := digest }

/-! ## The well-formedness conditions of R436 -/

/-- LEN when its words are correctable and it lies in range (R436). -/
def norLen (nor : List Host.Cell) (base : Nat) : Option Nat :=
  match norWord nor base 3, norWord nor base 4 with
  | some l, some h => if 0o130 ≤ u36 l h ∧ u36 l h ≤ 0o77000000 then some (u36 l h) else none
  | _, _ => none

/-- Every condition of R436 for a slot whose LEN is readable. -/
def norWellFormed (nor : List Host.Cell) (base len : Nat) : Bool :=
  let w := norW nor base
  let nn := (w 10).toNat
  let nl := (w 9).toNat
  let off := dirOff nor base
  let ln := dirLen nor base
  let headOk := ((List.range 48).all fun k => (norWord nor base k).isSome || 12 ≤ k && k ≤ 15)
  headOk && w 0 = 0o514162 && fld (w 1) 17 9 = 1
    && norWord nor base (len - 24) = some 0o162514
    && norU36 nor base (len - 24 + 17) = len
    && (fld (w 2) 17 0 = 1 || fld (w 2) 17 0 = 2 || fld (w 2) 17 0 = 4)
    && 1 ≤ nl && nl ≤ 256 && nn ≤ 8192 && fld (w 11) 17 1 = 0
    && off 1 = 0o100 && (List.range 7).all (fun i => off (i + 2) = off (i + 1) + ln (i + 1))
    && off 8 + ln 8 = len - 24
    && ln 1 = 16 + 4 * nn && ln 2 = 786432 && ln 3 = 0o200
    && ln 4 = recordsLen (recordsFrom nor base (off 4) (norU36 nor base 7))
    && ln 5 = 2 * (nl + 1)
    && ln 6 = 1 + 17 * (w (off 6)).toNat
    && ln 7 = 3 + 2 * norU36 nor base (off 7 + 1)
    && ln 8 = 49
    && norU36 nor base 5 = countIf (List.range 262144) (fun p => fld (w (off 2 + 3 * p)) 15 14 ≠ 0)
    && norU36 nor base 7 = norU36 nor base (off 5 + 2 * nl)

/-! ## The opcode catalogue (R124, R125) -/

/-- One row of R124: counts, which operands are analogue (none: as the output), words of state (R125). -/
structure OpRow where
  ninLo : Nat
  ninHi : Nat
  nout : Nat
  npar : Nat
  anaIn : List Bool
  state : Nat

/-- The catalogue; none for an opcode that is not in it. -/
def opRow (op : Nat) : Option OpRow :=
  let b (n : Nat) : List Bool := List.replicate n false
  if op = 0o010 ∨ op = 0o011 then some ⟨2, 15, 1, 0, b 15, 0⟩
  else if op = 0o012 then some ⟨1, 1, 1, 0, b 1, 0⟩
  else if op = 0o013 ∨ op = 0o014 then some ⟨3, 3, 1, 0, b 3, 0⟩
  else if op = 0o020 ∨ op = 0o022 then some ⟨1, 1, 1, 1, b 1, 2⟩
  else if op = 0o021 then some ⟨1, 1, 1, 1, b 1, 1⟩
  else if op = 0o023 then some ⟨2, 2, 2, 2, b 2, 2⟩
  else if op = 0o030 ∨ op = 0o031 then some ⟨2, 2, 1, 0, b 2, 1⟩
  else if op = 0o032 then some ⟨1, 1, 1, 1, b 1, 1⟩
  else if op = 0o040 ∨ op = 0o041 then some ⟨2, 2, 2, 1, b 2, 1⟩
  else if op = 0o042 then some ⟨1, 2, 3, 1, b 2, 1⟩
  else if op = 0o043 then some ⟨2, 2, 2, 2, b 2, 1⟩
  else if op = 0o044 then some ⟨2, 2, 2, 1, b 2, 1⟩
  else if op = 0o045 then some ⟨1, 1, 1, 4, [true], 1⟩
  else if op = 0o050 then some ⟨2, 2, 1, 5, [false, true], 2⟩
  else if op = 0o051 then some ⟨2, 2, 2, 7, [false, true], 4⟩
  else if op = 0o052 then some ⟨4, 4, 2, 5, [true, true, false, false], 2⟩
  else if op = 0o053 then some ⟨4, 4, 3, 4, b 4, 2⟩
  else if op = 0o054 then some ⟨2, 2, 2, 1, b 2, 2⟩
  else if op = 0o060 then some ⟨1, 1, 1, 1, b 1, 0⟩
  else none

/-- Whether the parameters lie in the ranges of R127 to R147. -/
def parsOk (i : Inst) : Bool :=
  let p := i.par
  let op := i.op.toNat
  let frate (x : Nat) : Bool := 40 ≤ x && x ≤ 120
  let deb (x : Nat) : Bool := 1 ≤ x && x ≤ 64
  let lag (x : Nat) : Bool := 1 ≤ x && x ≤ 8
  if op = 0o020 ∨ op = 0o021 ∨ op = 0o022 then 1 ≤ p 0
  else if op = 0o023 then frate (p 0) && p 1 ≤ 0o77
  else if op = 0o032 then p 0 ≤ 2
  else if op = 0o040 ∨ op = 0o041 ∨ op = 0o042 ∨ op = 0o044 then 1 ≤ p 0 && p 0 ≤ 0o7777
  else if op = 0o043 then 1 ≤ p 0 && p 0 ≤ 0o7777 && p 1 ≤ 1
  else if op = 0o045 then p 0 ≤ p 1 && p 1 ≤ 0o7777 && p 2 ≤ 0o777 && deb (p 3)
  else if op = 0o050 then p 0 ≤ p 1 && p 1 ≤ 0o7777 && p 2 ≤ 0o7777 && lag (p 3) && deb (p 4)
  else if op = 0o051 then p 0 ≤ p 1 && p 1 < p 2 && p 2 ≤ 0o7777 && p 3 ≤ 0o7777 && lag (p 4) && deb (p 5) && 1 ≤ p 6
  else if op = 0o052 then p 0 ≤ p 1 && p 1 ≤ 0o7777 && p 2 ≤ 0o7777 && deb (p 3) && 1 ≤ p 4
  else if op = 0o053 then frate (p 0) && 1 ≤ p 1 && 1 ≤ p 2 && 1 ≤ p 3
  else if op = 0o054 then 1 ≤ p 0
  else if op = 0o060 then p 0 ≤ 1023
  else true

/-- Whether the operands are binary or analogue as the catalogue marks them (R118, R124). -/
def kindsOk (n : Net) (i : Inst) : Bool :=
  let ana (w : Word) : Bool := (n.decl w.toNat).ana
  let op := i.op.toNat
  if op = 0o014 then
    !ana (i.ins.getD 0 0) && (i.ins.drop 1 ++ i.outs).all (fun w => ana w == ana (i.outs.headD 0))
  else if op = 0o060 then (i.ins ++ i.outs).all (fun w => ana w == ana (i.outs.headD 0))
  else match opRow op with
    | some r => (i.ins.zip r.anaIn).all (fun x => ana x.1 == x.2) && i.outs.all (fun w => !ana w)
    | none => false

/-- R95, R118, R123: opcode, counts, ranges, operand kinds. -/
def instOk (n : Net) (i : Inst) : Bool :=
  match opRow i.op.toNat with
  | none => false
  | some r => r.ninLo ≤ i.ins.length && i.ins.length ≤ r.ninHi && i.outs.length = r.nout && i.pars.length = r.npar
      && parsOk i && kindsOk n i

/-- Words of state of an occurrence (R125). -/
def Inst.stateWords (i : Inst) : Nat := ((opRow i.op.toNat).map (·.state)).getD 0

/-- The instance area of R42. -/
def Net.area (n : Net) : Nat := n.insts.foldl (fun a i => a + i.words.length + 2 * i.stateWords) 0

/-- The node layout of R42. -/
def Net.layout (n : Net) : Nat :=
  (List.range n.nnode).foldl (fun a k => a + 2 + (n.slots k 1).length + (n.slots k 2).length) 0

/-! ## The checks of R107 -/

/-- Limits of R42, R43, R44 (reason 0o005). -/
def limitsOk (n : Net) : Bool :=
  let np := countIf n.decls fun d => d.2.kind ≠ 0
  let ni := n.insts.length
  n.layout ≤ 262144 && n.nlevel ≤ 256 &&
    (if n.period = 1 then np ≤ 131072 && ni ≤ 262144 && n.area ≤ 1572864
     else np ≤ 262144 && ni ≤ 524288 && n.area ≤ 3145728)

/-- Nodes per port (R30, reason 0o006). -/
def nodesOk (n : Net) : Bool :=
  (List.range 4).all fun p =>
    (n.portNodes p).length ≤ if n.portOpt p .A || n.portOpt p .B then 512 else 2048

/-- Line bits of a frame with payload LEN (R236). -/
def lineBits (len : Nat) : Nat := (max 64 (46 + len) + 20) * 8

/-- The worst-case bits of one tide on a lane of a port (R236). -/
def laneBits (n : Net) (p : Nat) : Nat :=
  (n.portNodes p).foldl (fun a k => a + lineBits (n.inputLen k)) 0
    + (n.convoys.filter (·.port = p)).foldl (fun a c => a + lineBits (n.convoyLen c)) 0
    + 64 * 2208 + 16 * 1184

/-- Lane load at most 25 % of the line rate (R41, R236, reason 0o007). -/
def loadOk (n : Net) : Bool :=
  (List.range 4).all fun p => [Lane.A, Lane.B].all fun l =>
    4 * laneBits n p ≤ n.period * (if n.portOpt p l then 1000000 else 10000000)

/-- Mirror data within the Hawser limit (R50, R245, reason 0o010). -/
def mirrorLimit (period : Nat) (slow : Bool) : Nat :=
  if slow then (if period = 1 then 4096 else if period = 2 then 8192 else 16384)
  else if period = 1 then 32768 else 65536

def mirrorOk (n : Net) : Bool :=
  !n.twin || n.mirrorSize ≤ mirrorLimit n.period (n.hopt .A || n.hopt .B)

/-- Adjacent elements satisfy r. -/
def chain {α : Type} (r : α → α → Bool) : List α → Bool
  | a :: b :: t => r a b && chain r (b :: t)
  | _ => true

/-- Level order and reads (R96, R97, reason 0o011). -/
def levelsOk (n : Net) : Bool :=
  n.levels.headD 1 = 0 && chain (fun a b => a < b) n.levels && n.levels.getLastD 0 = n.insts.length
    && chain (fun a b => a.1 < b.1 || (a.1 = b.1 && a.2 ≤ b.2))
        ((List.range n.insts.length).zip n.insts |>.map fun x => (n.levelOf x.1, x.2.group))
    && ((List.range n.insts.length).zip n.insts).all fun x =>
        n.levelOf x.1 ≠ 0 || x.2.ins.all fun w =>
          x.2.outs.contains w || match n.driver w.toNat with
            | some k => n.levelOf k ≠ 0
            | none => true

/-- How many outputs of the net drive a point. -/
def Net.drives (n : Net) (p : Nat) : Nat :=
  n.insts.foldl (fun a i => a + i.outs.countP fun w => w.toNat = p) 0

/-- Driver rules (R81, reason 0o012). -/
def driversOk (n : Net) : Bool :=
  (n.decls.all fun d =>
    if d.2.kind = 0 then true
    else if d.2.kind = 1 then n.drives d.1 = 0
    else if d.2.kind = 2 then n.drives d.1 = 1 &&
      (match n.driver d.1 with | some k => (n.inst k).op = 0o060 | none => false)
    else n.drives d.1 = 1 || (n.drives d.1 = 0 && d.2.cls = 1))
  && (n.insts.all fun i => i.op ≠ 0o060 || i.outs.all fun w => (n.decl w.toNat).kind = 2)
  && ((List.range 32).filterMap n.inPoint ++ (List.range 16).filterMap n.outPoint).Nodup

/-- Opcodes, counts, ranges (reason 0o013). -/
def instsOk (n : Net) : Bool := n.insts.all (instOk n)

/-- Class rules (R82, reason 0o014). -/
def classOk (n : Net) : Bool :=
  n.insts.all fun i =>
    let cls (w : Word) : Nat := (n.decl w.toNat).cls
    let isProof := i.op = 0o043 || i.op = 0o044
    (!(i.outs.any fun w => cls w ≠ 1) || i.ins.all fun w => cls w ≠ 1)
      && (if isProof then (i.ins ++ i.outs).all fun w => cls w = 2 else i.outs.all fun w => cls w ≠ 2)

/-- Declaration rules of one point (R88, R94): a point that is not declared has three words of 0 (log 80). -/
def declOk (d : Decl) : Bool :=
  d.kind ≠ 0 && d.cls ≤ 2 && d.smode ≤ 1 && (d.ana || d.safe ≤ 1)
    && (!(d.kind = 2 && d.isLocal) || (d.safe = 0 && d.smode = 0))
    && (d.smode ≠ 1 || (!d.ana && d.kind = 2 && !d.isLocal && d.safe = 0 && 40 ≤ d.frate && d.frate ≤ 120))

/-- The slot numbers of a list of points are 0, 1, 2, … (R213). -/
def slotsOk (n : Net) (ps : List Nat) : Bool := ps.map (fun p => (n.decl p).slot) = List.range ps.length

/-- Section 1 fields (R234). -/
def sec1Ok (n : Net) : Bool :=
  let w (i : Nat) : Word := n.sec1.getD i 0
  fld (w 0) 17 16 = 0 && fld (w 1) 17 12 = 0 && fld (w 2) 17 8 = 0
    && 0o400000 ≤ (w 3).toNat && (w 3).toNat ≤ 0o777776
    && (List.range 4).all (fun p => fld (w (4 + p)) 17 3 = 0)
    && (List.range 8).all (fun i => w (8 + i) = 0)
    && (List.range n.nnode).all fun k =>
        2 ≤ n.nodeLoss k && n.nodeLoss k ≤ 64 && n.portUsed (n.nodePort k)
          && fld (n.nodeWord k 0) 8 0 = 0 && fld (n.nodeWord k 1) 17 16 = 0 && fld (n.nodeWord k 2) 17 16 = 0
          && n.nodeWord k 3 = 0

/-- Section 3 (R188, R201, R202). -/
def sec3Ok (n : Net) : Bool :=
  let named (pt : Option Nat) (t kind : Nat) : Bool :=
    let owners := n.decls.filter fun d => d.2.isLocal && d.2.kind = kind && d.2.source = t
    match pt with
    | some p => owners.map (·.1) = [p] && !(n.decl p).ana
    | none => owners.isEmpty
  (List.range 32).all (fun t => named (n.inPoint t) t 1
      && ((n.inPoint t).isNone || (n.inFeed t ≤ 10 && (n.inFeed t ≥ 8 || n.feedCode (n.inFeed t) ≠ 0))))
    && (List.range 16).all (fun q => named (n.outPoint q) q 2
      && ((n.outPoint q).isNone ||
          (1 ≤ fld (n.sec3.getD (64 + 2 * q + 1) 0) 3 0 && fld (n.sec3.getD (64 + 2 * q + 1) 0) 3 0 ≤ 8)))
    && (List.range 8).all (fun f => n.feedCode f ≤ 8)
    && (List.range 8).all fun f => (List.range f).all fun g =>
        n.feedCode f = 0 || n.feedCode g = 0 ||
          n.feedSlot f % min (n.feedPeriod f) (n.feedPeriod g) ≠ n.feedSlot g % min (n.feedPeriod f) (n.feedPeriod g)

/-- Section 6 (R221, R222, R235). -/
def sec6Ok (n : Net) : Bool :=
  let cs := n.convoys
  cs.length ≤ 2048
    && cs.all (fun c => 1 ≤ c.nent && c.nent ≤ 16 && fld (c.words.headD 0) 10 9 = 0
        && (c.words.drop (1 + c.nent)).all (· = 0o777777)
        && c.nodes.all (fun k => k < n.nnode && n.nodePort k = c.port) && n.convoyLen c ≤ 210)
    && chain (fun a b => a.port < b.port || (a.port = b.port && a.conv < b.conv)) cs
    && (List.range 4).all (fun p =>
        (cs.filter (·.port = p)).map (·.conv) = List.range (countIf cs (·.port = p)) && countIf cs (·.port = p) ≤ 512)
    && sortBy (fun x y => decide (x ≤ y)) (cs.flatMap (·.nodes)) = List.range n.nnode

/-- Section 7 (R242, R243). -/
def sec7Ok (n : Net) : Bool :=
  let lg := n.localGroups
  if n.twin then
    fld (n.sec7.headD 0) 17 2 = 0 && chain (fun a b => a < b) n.mirrored
      && n.mirrored.all (fun k => k < n.insts.length &&
          mirrorWords (n.inst k).op.toNat ≠ 0
          && !gHas lg (n.inst k).group)
      && n.decls.all (fun d => !gHas lg (groupOf d.1) || !(d.2.kind = 1 || d.2.kind = 2) || d.2.isLocal)
      && n.insts.all (fun i => !(i.ins.any fun w => gHas lg (groupOf w.toNat))
          || i.outs.all fun w => gHas lg (groupOf w.toNat))
  else n.sec7.all (· = 0)

/-- Declaration rules (R79, R88, R202, R213, R218, R221, R234, R235, R242, R243, reason 0o022). -/
def declsOk (n : Net) : Bool :=
  (n.decls.all fun d => declOk d.2)
    && (n.insts.all fun i => (i.ins ++ i.outs).all fun w => n.declared w.toNat)
    && (List.range n.nnode).all (fun k => slotsOk n (n.slots k 1) && slotsOk n (n.slots k 2) && n.inputLen k ≤ 210)
    && sec1Ok n && sec3Ok n && sec6Ok n && sec7Ok n

/-! ## Touch computation (R108, R113) -/

/-- The records of the occurrences that belong to a group, in order. -/
def Net.groupInsts (n : Net) (g : Nat) : List Inst := n.insts.filter (·.group = g)

/-- The groups an entry of section 3 names in one net: a terminal entry its point while used, a feed entry the points of
the inputs it feeds (R108, R202). -/
def sec3Groups (n : Net) (e : Nat) : GSet :=
  if e < 32 then gOf (((n.inPoint e).map groupOf).toList)
  else if e < 48 then gOf (((n.outPoint (e - 32)).map groupOf).toList)
  else gOf ((List.range 32).filterMap fun t => if n.inFeed t = e - 48 then (n.inPoint t).map groupOf else none)

/-- The groups touched by `new` relative to `old` (R108). -/
def touched (old new : Net) : GSet :=
  let keys := (old.decls.map (·.1)) ++ (new.decls.map (·.1))
  let byDecl := gOf ((keys.filter fun p => old.decl p ≠ new.decl p).map groupOf)
  let byInst := gOf ((List.range 512).filter fun g => old.groupInsts g ≠ new.groupInsts g)
  let bySec3 := (List.range 56).foldl (fun a e =>
    if (old.sec3.drop (2 * e)).take 2 = (new.sec3.drop (2 * e)).take 2 then a
    else a ||| sec3Groups old e ||| sec3Groups new e) 0
  let co := old.convoys
  let cn := new.convoys
  let diff (a b : List Convoy) (n : Net) : GSet :=
    a.foldl (fun s c => if b.any (fun x => x.port = c.port && x.conv = c.conv && x.words = c.words) then s
      else s ||| n.convoyGroups c) 0
  let bySec6 := diff co cn old ||| diff cn co new
  let mir (n : Net) : List Inst := n.mirrored.map fun k => n.inst k
  let mo := old.mirrored
  let mn := new.mirrored
  let bySec7 := if mo = mn then 0 else
    gOf (((mir old).zip mo |>.filter fun x => !mn.contains x.2).map (·.1.group)) |||
    gOf (((mir new).zip mn |>.filter fun x => !mo.contains x.2).map (·.1.group))
  let base := byDecl ||| byInst ||| bySec3 ||| bySec6 ||| bySec7
  let points (n : Net) : List Nat := (n.decls.filter fun d => d.2.kind ≠ 0).map (·.1)
  if old.sec1 = new.sec1 then base else base ||| gOf ((points old ++ points new).map groupOf)

/-- NETCHG, PRED and MAP of section 8 (R98). -/
def Net.netchg (n : Net) : Bool := (n.sec8.getD 16 0).getLsbD 0
def Net.pred (n : Net) : Octets := digestOfWords (n.sec8.take 16)
def Net.map (n : Net) : GSet :=
  gOf ((List.range 512).filter fun g => (n.sec8.getD (17 + g / 16) 0).getLsbD (g % 16))

/-- The commit delta in words (R113). -/
def delta (new : Net) (t : GSet) : Nat :=
  (gList t).foldl (fun a g => a + 1536 + recordsLen (new.groupInsts g)) 0

/-! ## What a die finds in a slot -/

/-- The outcome of reading and checking a slot. -/
structure Check where
  net : Option Net
  digest : Octets
  reasons : List Nat
  corrupt : Bool
  deriving DecidableEq, Repr

/-- The checks of R107 that concern the content, each with its reason code. -/
def contentReasons (n : Net) : List Nat :=
  [(limitsOk n, 0o005), (nodesOk n, 0o006), (loadOk n, 0o007), (mirrorOk n, 0o010), (levelsOk n, 0o011),
   (driversOk n, 0o012), (instsOk n, 0o013), (classOk n, 0o014), (declsOk n, 0o022)].filterMap
    fun x => if x.1 then none else some x.2

/-- Read, judge by R436, resolve the digest by R102 and apply the content checks of R107. -/
def checkSlot (nor : List Host.Cell) (slot : Nat) : Check :=
  let base := slotBase slot
  match norLen nor base with
  | none => { net := none, digest := List.replicate 32 0, reasons := [0o003], corrupt := false }
  | some len =>
    if !norWellFormed nor base len then
      { net := none, digest := List.replicate 32 0, reasons := [0o003], corrupt := false }
    else
      let h := norDigestCopy nor base 48
      let t := norDigestCopy nor base (len - 23)
      let c := norDigest nor base len
      let pair : List Nat × Bool × Octets :=
        match h, t with
        | some x, some y =>
          if x = y then (if c = some x then ([], false, x) else ([0o001], false, x))
          else if c = some x ∨ c = some y then ([], true, c.getD x) else ([0o001, 0o002], false, x)
        | some x, none => if c = some x then ([], true, x) else ([0o001, 0o002], false, x)
        | none, some y => if c = some y then ([], true, y) else ([0o001, 0o002], false, y)
        | none, none => ([0o002], false, List.replicate 32 0)
      let n := netOf nor base pair.2.2
      { net := some n, digest := pair.2.2, reasons := pair.1 ++ contentReasons n, corrupt := pair.2.1 }

/-- A commit record (R100). -/
structure CommitRec where
  seq : Nat
  tide : Tide
  digest : Octets
  deriving DecidableEq, Repr

/-- The readable commit record at an offset of a slot, if any (R92, R100). -/
def commitRec (nor : List Host.Cell) (slot which : Nat) : Option CommitRec :=
  let base := slotBase slot + (if which = 0 then 0x2F40000 else 0x2F80000)
  let ws := norWords nor base 0 22
  if ws.all Option.isSome && norW nor base 0 = 0o432100 then
    some { seq := norU36 nor base 1, tide := BitVec.ofNat 36 (norU36 nor base 3),
           digest := digestOfWords ((List.range 16).map fun i => norW nor base (5 + i)) }
  else none

/-- The readable records of a slot. -/
def commitRecs (nor : List Host.Cell) (slot : Nat) : List CommitRec :=
  [commitRec nor slot 0, commitRec nor slot 1].filterMap id

/-- A slot's record for selection: the readable one with the higher SEQ, at equal SEQ the later tide (R101). -/
def slotRec (nor : List Host.Cell) (slot : Nat) : Option CommitRec :=
  match commitRecs nor slot with
  | [a, b] => if a.seq < b.seq then some b else if a.seq = b.seq && later b.tide a.tide then some b else some a
  | [a] => some a
  | _ => none

/-- Slot selection (R101): the slot, or the reason none is selected. -/
def selectSlot (nor : List Host.Cell) : Nat ⊕ Nat :=
  match slotRec nor 0, slotRec nor 1 with
  | none, none => .inr 0o024
  | some _, none => .inl 0
  | none, some _ => .inl 1
  | some a, some b =>
    if a.seq > b.seq then .inl 0
    else if b.seq > a.seq then .inl 1
    else if later a.tide b.tide then .inl 0
    else if later b.tide a.tide then .inl 1
    else if a.digest = b.digest then .inl 0
    else .inr 0o025

/-- What a die's load work finds: the selected slot, its SEQ, the check and the reasons (R101 to R103, R107). -/
structure Load where
  slot : Option Nat
  seq : Nat
  chk : Check
  deriving DecidableEq, Repr

/-- The load work of one die. -/
def loadDie (nor : List Host.Cell) : Load :=
  match selectSlot nor with
  | .inr why =>
    { slot := none, seq := 0,
      chk := { net := none, digest := List.replicate 32 0, reasons := [why], corrupt := false } }
  | .inl slot =>
    let c := checkSlot nor slot
    let recs := commitRecs nor slot
    let best := slotRec nor slot
    let seq := (best.map (·.seq)).getD 0
    -- records of equal SEQ that differ: the one whose digest resolves counts (R101)
    let usedRec : Option CommitRec :=
      match recs with
      | [a, b] =>
        if a.seq = b.seq then
          (if a.digest = c.digest && b.digest = c.digest then (if later b.tide a.tide then some b else some a)
           else if a.digest = c.digest then some a else if b.digest = c.digest then some b else best)
        else best
      | _ => best
    let badRec := match recs with
      | [a, b] => a ≠ b
      | _ => false
    -- judged only where R102 has resolved a digest
    let invalid := (usedRec.map (·.digest)) ≠ some c.digest && !c.reasons.contains 0o002
    { slot := some slot, seq := seq,
      chk := { c with reasons := c.reasons ++ (if invalid && c.net.isSome then [0o001] else []),
                      corrupt := c.corrupt || badRec } }

/-- The lowest of a list of reasons, 0 for none (R107). -/
def lowest (l : List Nat) : Nat :=
  match l with
  | [] => 0
  | x :: t => t.foldl min x

/-- The net when the load passed. -/
def Load.passed (l : Load) : Option Net := if l.chk.reasons.isEmpty then l.chk.net else none

end Sys2Proof.Machine
end

