-- ==== Sys2Proof/Machine/Frames.lean ====
section
/-!
DEFINITION. Laninelm Safety Telegrams: header, salt, signatures, the frame on the line and its checks on receipt (R209 to
R217, R246), field blocks (R213, R214), ENROL offers (R228) and the state words the mirror carries (R244).
-/

namespace Sys2Proof.Machine

/-! ## Building -/

/-- A header of 16 octets (R210). LANE and UNIT count as 0 where a signature is computed (R215). -/
def lstHeader (f : Lst) (signing : Bool) : Octets :=
  let lu := if signing then 0 else b2n (f.lane == .B) * 32768 + b2n f.unit * 16384
  [BitVec.ofNat 8 (16 + f.kind.toNat)] ++ be 3 f.src.toNat ++ be 3 f.dst.toNat ++ be 5 f.tide.toNat
    ++ be 2 (lu + f.subseq.toNat) ++ be 2 f.payload.length

/-- The octet string both signatures cover (R215). -/
def lstSigned (salt : Octets) (f : Lst) : Octets := salt ++ lstHeader f true ++ f.payload

/-- The A-signature (R215). -/
def sigAOf (salt : Octets) (f : Lst) : BitVec 32 := crc32c (lstSigned salt f)

/-- The B-signature (R215). -/
def sigBOf (salt : Octets) (f : Lst) : BitVec 32 := crc32k (lstSigned salt f)

/-- A telegram signed by both channels over the same content (R216). -/
def lstSign (salt : Octets) (f : Lst) : Lst :=
  { f with sigA := sigAOf salt f, sigB := sigBOf salt f }

/-- A telegram whose A-signature covers Channel A's payload and whose B-signature covers Channel B's (R24, R216). -/
def lstSign2 (salt : Octets) (f : Lst) (payloadB : Octets) : Lst :=
  { f with sigA := sigAOf salt f, sigB := sigBOf salt { f with payload := payloadB } }

/-- The IEEE 802.3 frame check sequence, as it stands at the end of a frame (R209). -/
def fcs (os : Octets) : Octets :=
  let c := (os.foldl (fun r o => (bitsL 8 o.toNat).foldl (crcBitR 0xEDB88320) r) (0xFFFFFFFF : BitVec 32)) ^^^ 0xFFFFFFFF
  (be 4 c.toNat).reverse

/-- The destination address of a DST (R212). -/
def macOf (dst : Word) : Octets := [0x03, 0x4C, 0x53] ++ be 3 dst.toNat

/-- The frame on the line (R209). -/
def lstWire (vid etype : Nat) (f : Lst) : Octets :=
  let body := macOf f.dst ++ be 6 Config.sourceMac.toNat ++ [0x81, 0x00] ++ be 2 (6 * 8192 + vid) ++ be 2 etype
    ++ lstHeader f false ++ f.payload ++ be 4 f.sigA.toNat ++ be 4 f.sigB.toNat
    ++ List.replicate (18 - f.payload.length) 0
  body ++ fcs body

/-! ## Receipt -/

/-- The telegram in a frame whose form is right: tagged with the VID and EtherType of section 1, an FCS that holds, the
length of R209, VERSION 1, reserved bits 0 and a destination address that matches DST (R209, R210, R212, R217). -/
def lstParse (vid etype maxLen : Nat) (os : Octets) : Option Lst :=
  let len := field os 32 2
  let n := os.length
  let lw := field os 30 2
  if 64 ≤ n && len ≤ maxLen && n = max 64 (46 + len) && fcs (os.take (n - 4)) = os.drop (n - 4)
      && field os 12 2 = 0x8100 && field os 14 2 % 4096 = vid && field os 16 2 = etype
      && field os 18 1 / 16 = 1 && field os 19 3 < 262144 && field os 22 3 < 262144 && field os 25 5 < 2 ^ 36
      && lw / 512 % 32 = 0 && slice os 0 6 = macOf (BitVec.ofNat 18 (field os 22 3)) then
    some { kind := BitVec.ofNat 4 (field os 18 1), src := BitVec.ofNat 18 (field os 19 3),
           dst := BitVec.ofNat 18 (field os 22 3), tide := BitVec.ofNat 36 (field os 25 5),
           lane := if bitOf lw 15 then .B else .A, unit := bitOf lw 14, subseq := BitVec.ofNat 9 lw,
           payload := slice os 34 len, sigA := BitVec.ofNat 32 (field os (34 + len) 4),
           sigB := BitVec.ofNat 32 (field os (38 + len) 4) }
  else none

/-- The sequence value of a copy (R226). -/
def seqVal (f : Lst) : BitVec 45 := BitVec.ofNat 45 (f.tide.toNat * 512 + f.subseq.toNat)

/-! ## Field blocks (R213, R214) -/

/-- Octets of a string of bits, most significant first, the last octet filled with 0. -/
def packBits : Nat → List Bool → Octets
  | 0, _ => []
  | n + 1, bs =>
    let b8 := (bs ++ List.replicate 8 false).take 8
    BitVec.ofNat 8 (b8.foldl (fun a b => a * 2 + b2n b) 0) :: packBits n (bs.drop 8)

/-- The bits of octets, most significant first. -/
def unpackBits (os : Octets) : List Bool := os.flatMap fun o => bitsM 8 o.toNat

/-- Q of a point state word (R84). -/
def qOf (w : Word) : Nat := fld w 17 16

/-- VAL of a point state word (R84). -/
def valOf (w : Word) : Nat := fld w 11 0

/-- The field of a committed word (R214): VALID with its value for Q = 00, otherwise VALID 0 with the safe value. -/
def fieldBits (d : Decl) (w : Word) : List Bool :=
  let ok := qOf w = 0
  let v := if ok then valOf w else d.safe
  if d.ana then decide ok :: false :: bitsM 12 v else [decide ok, v % 2 == 1]

/-- The field block of some points, from a reading of each point. -/
def fieldBlock (n : Net) (ps : List Nat) (rd : Nat → Word) : Octets :=
  packBits (n.blockLen ps) (ps.flatMap fun p => fieldBits (n.decl p) (rd p))

/-- A substituted word with a point's safe value (Q = 10). -/
def substWord (d : Decl) : Word := BitVec.ofNat 18 (0o400000 + d.safe)

/-- The words a field block enters for its points (R214). -/
def blockWords (n : Net) : List Nat → List Bool → List (Nat × Word)
  | [], _ => []
  | p :: ps, bs =>
    let d := n.decl p
    if d.ana then
      let v := ((bs.drop 2).take 12).foldl (fun a b => a * 2 + b2n b) 0
      let w := if bs.getD 0 false && !(bs.getD 1 false) then BitVec.ofNat 18 v else substWord d
      (p, w) :: blockWords n ps (bs.drop 14)
    else
      let w := if bs.getD 0 false then BitVec.ofNat 18 (b2n (bs.getD 1 false)) else substWord d
      (p, w) :: blockWords n ps (bs.drop 2)

/-- The words of a node's input points from the payload of its INPUT telegram (R214, R218). -/
def inputWords (n : Net) (node : Nat) (payload : Octets) : List (Nat × Word) :=
  blockWords n (n.slots node 1) (unpackBits (payload.drop 2))

/-- The words of a node's input points when no copy counts (R54). -/
def substWords (n : Net) (node : Nat) : List (Nat × Word) :=
  (n.slots node 1).map fun p => (p, substWord (n.decl p))

/-! ## ENROL payloads (R228) -/

/-- The 24-bit descriptor of a slot. -/
def slotDesc (d : Decl) (out : Bool) : Octets :=
  be 3 (b2n out * 2 ^ 23 + b2n d.ana * 2 ^ 22 + b2n (d.smode == 1) * 2 ^ 21 + d.frate * 2 ^ 12 + d.safe)

/-- All descriptors of a node: input slots, then output slots. -/
def slotDescs (n : Net) (node : Nat) : Octets :=
  ((n.slots node 1).flatMap fun p => slotDesc (n.decl p) false)
    ++ (n.slots node 2).flatMap fun p => slotDesc (n.decl p) true

/-- TCRC of a node (R228). -/
def tcrc (n : Net) (node : Nat) : BitVec 32 := crc32c (slotDescs n node)

/-- The convoy a node appears in (R222). -/
def convoyOf (n : Net) (node : Nat) : Option Convoy := n.convoys.find? fun c => c.nodes.contains node

/-- DST of a convoy (R211). -/
def convoyDst (c : Convoy) : Word := BitVec.ofNat 18 (0o200000 + 0o1000 * c.port + c.conv)

/-- Descriptor octets in pieces of 207, 69 descriptors each. -/
def pieces (size : Nat) : Nat → Octets → List Octets
  | 0, _ => []
  | _, [] => []
  | n + 1, os => os.take size :: pieces size n (os.drop size)

/-- The payloads of the OFFER fragments to a node at tide period `per` (R228). -/
def offerPayloads (n : Net) (per : Nat) (salt : Octets) (node : Nat) : List Octets :=
  let ni := (n.slots node 1).length
  let no := (n.slots node 2).length
  let ps := pieces 207 (ni + no) (slotDescs n node)
  let nf := 1 + ps.length
  let cdst := ((convoyOf n node).map convoyDst).getD 0
  let head : Octets := [1, 0, BitVec.ofNat 8 nf, BitVec.ofNat 8 per, BitVec.ofNat 8 (n.nodeLoss node)] ++ salt
    ++ be 3 cdst.toNat ++ be 2 ni ++ be 2 no ++ be 4 (n.nodeType node) ++ be 4 (tcrc n node).toNat
  head :: (ps.zip (List.range ps.length)).map fun x => [1, BitVec.ofNat 8 (x.2 + 1), BitVec.ofNat 8 nf] ++ x.1

/-! ## Fragments (R224) -/

/-- The SERVICE payloads that carry a message. -/
def servicePayloads (tag : Byte) (msg : Octets) : List Octets :=
  let ps := match pieces 208 (msg.length + 1) msg with
    | [] => [[]]
    | l => l
  (ps.zip (List.range ps.length)).map fun x =>
    [BitVec.ofNat 8 (b2n (decide (x.2 + 1 = ps.length)) * 128 + x.2), tag] ++ x.1

end Sys2Proof.Machine
end

