-- ==== Sys2Proof/Machine/Record.lean ====
section
/-!
DEFINITION. Records of the Event Recorder as blocks make them (R408 to R412, R415), and the small readings of the state
that every block uses: the tide in progress, tide counts of a duration, the net in force.
-/

namespace Sys2Proof.Machine

/-- The tide number in progress. -/
def State.now (s : State) : Tide := s.tide.num

/-- The tide period in ms. -/
def State.per (s : State) : Nat := s.tide.per.toNat

/-- Tides of a duration in ms at the period in force (R14). -/
def State.tides (s : State) (ms : Nat) : Nat := Config.tidesOf ms s.per

/-- A net with nothing in it. -/
def Net.empty : Net :=
  { head := [], sec1 := [], decls := [], sec3 := [], insts := [], levels := [0], sec6 := [], sec7 := [], sec8 := [],
    digest := List.replicate 32 0 }

/-- The net the A-die holds; empty before a load. -/
def State.netA (s : State) : Net := s.a.net.getD Net.empty

/-- The net the B-die holds. -/
def State.netB (s : State) : Net := s.b.net.getD Net.empty

/-- Whether a net is loaded on the A-die. -/
def State.loaded (s : State) : Bool := s.a.net.isSome

/-- The state of one die. -/
def State.die (s : State) (d : Die) : DieState :=
  match d with
  | .A => s.a
  | .B => s.b

/-- Change the state of one die. -/
def State.setDie (s : State) (d : Die) (x : DieState) : State :=
  match d with
  | .A => { s with a := x }
  | .B => { s with b := x }

/-- The other die. -/
def Die.other (d : Die) : Die :=
  match d with
  | .A => .B
  | .B => .A

/-- Whether a die runs. -/
def State.runs (s : State) (d : Die) : Bool := !(s.die d).inReset

/-- Whether the module is in a state from Enrol on. -/
def State.armedMode (s : State) : Bool := s.mode = .enrol || s.mode = .live

/-- The salt of R215: octets 0 to 3 of MANIFEST_DIGEST_ENROLLED. -/
def State.salt (s : State) : Octets := s.man.enrolledDig.take 4

/-- Node n counts as enrolled in the tide in progress (R229). -/
def State.enrolledNow (s : State) (n : Nat) : Bool := (s.nodes.getD n {}).enrolled

/-- Hand a frame or message over to be sent. -/
def State.send (s : State) (x : Tx) : State := { s with tx := s.tx ++ [x] }

/-- Hand several over. -/
def State.sendAll (s : State) (xs : List Tx) : State := { s with tx := s.tx ++ xs }

/-! ## Records -/

/-- One slot of 16 octets (R408). -/
def recSlot (kind : Nat) (cont bdie : Bool) (t : Tide) (tick : Nat) (pay : Octets) : Octets :=
  [BitVec.ofNat 8 (kind * 16 + t.toNat / 2 ^ 32)] ++ be 4 (t.toNat % 2 ^ 32)
    ++ be 2 (b2n cont * 32768 + b2n bdie * 16384 + tick % 4096) ++ (pay ++ List.replicate 9 0).take 9

/-- Pieces of 9 octets. -/
def nines : Nat → Octets → List Octets
  | 0, _ => []
  | n + 1, os => os.take 9 :: nines n (os.drop 9)

/-- A record with its continuations (R408). -/
def recGroup (kind : Nat) (bdie : Bool) (t : Tide) (tick : Nat) (pay : Octets) (cont : Octets) : List Octets :=
  recSlot kind false bdie t tick pay
    :: (nines ((cont.length + 8) / 9) cont).map fun c => recSlot kind true bdie t tick c

/-- Records queued (QFILL of R418). -/
def RecSt.qfill (r : RecSt) : Nat := r.queue.foldl (fun a g => a + g.length) 0

/-- Queue a record. The last 256 places are for kinds other than POINT, which are never dropped (R415). -/
def recAdd (s : State) (g : List Octets) : State :=
  if s.a.inReset then s else { s with rcd := { s.rcd with queue := s.rcd.queue ++ [g], latest := s.now } }

/-- Make a record stamped with the instant. -/
def recMake (s : State) (kind : Nat) (bdie : Bool) (pay cont : Octets) : State :=
  recAdd s (recGroup kind bdie s.now s.tide.tick.toNat pay cont)

/-- Make a POINT record, or drop and count it when the queue has no free place for it (R411, R415). -/
def recPoint (s : State) (p : Nat) (new old : Word) : State :=
  if 8192 - 256 ≤ s.rcd.qfill then
    { s with rcd := { s.rcd with drop := sat18 s.rcd.drop, dropNow := s.rcd.dropNow + 1 } }
  else recMake s 1 false (be 3 p ++ be 3 new.toNat ++ be 3 old.toNat) []

/-- A SYSTEM record (R410). -/
def recSystem (s : State) (op : Nat) (pay : Octets) : State := recMake s 7 false (BitVec.ofNat 8 op :: pay) []

/-- A MANIFEST record: op, reason, SEQ, slot and the digest (R409). -/
def recManifest (s : State) (op reason seq slot : Nat) (dig : Octets) : State :=
  recMake s 5 false ([BitVec.ofNat 8 op] ++ be 2 reason ++ be 5 seq ++ [BitVec.ofNat 8 slot]) (dig ++ [0, 0, 0, 0])

/-- The code of a role (R264). -/
def Role.code : Role → Nat
  | .solo => 0
  | .leader => 1
  | .follower => 2
  | .isoSending => 3
  | .isoSilent => 4
  | .resync => 5

/-- A TWIN record (R409). -/
def recTwin (s : State) (old new : Role) (cause : BitVec 8) : State :=
  recMake s 6 false ([BitVec.ofNat 8 old.code, BitVec.ofNat 8 new.code, cause, s.twin.peer.headD 0]
    ++ be 5 s.twin.peerTide.toNat) []

end Sys2Proof.Machine
end

