-- ==== Sys2Proof/Machine/Sessions.lean ====
section
/-!
DEFINITION. What every service operation shares: messages and their MAC (R275 to R277), responses (R283), the Helm and
its notices (R291 to R294, R409), and the end of a session (R280).
-/

namespace Sys2Proof.Machine

/-! ## Messages -/

/-- A message header (R276). -/
def svcHeader (typ ses lvl len : Nat) (cnt : BitVec 32) : Octets :=
  [BitVec.ofNat 8 (16 + typ), BitVec.ofNat 8 (ses * 16 + lvl)] ++ be 2 len ++ be 4 cnt.toNat

/-- A whole message with its MAC under a key and two nonces (R275 to R277). -/
def svcMessage (key nc nm : Octets) (typ ses lvl : Nat) (cnt : BitVec 32) (body : Octets) : Octets :=
  let h := svcHeader typ ses lvl body.length cnt ++ body
  h ++ mac key (nc ++ nm ++ h)

/-- The key of a level; an unset level has none (R275). -/
def State.key (s : State) (lvl : Nat) : Option Octets := s.dict.keys.getD lvl none

/-- The path code of a session's far end (R274). -/
def Client.path : Client → Nat
  | .udp _ _ => 0
  | .field _ _ => 1
  | .peer _ => 2
  | .own => 3

/-- Session k when it is open. -/
def State.ses (s : State) (k : Nat) : Option Session := s.svc.ses.getD k none

/-- Change session k when it is open. -/
def State.modSes (s : State) (k : Nat) (f : Session → Session) : State :=
  { s with svc := { s.svc with ses := listMod s.svc.ses k fun o => o.map f } }

/-- A unit is in reset. -/
def State.unitDown (s : State) (u : RstUnit) : Bool := s.resets.any fun x => x.1 = u

/-- Give a message to its path: a datagram at once, unless port M is in reset (R328), a message of path 3 to the receive ring
(R297), SERVICE frames in an emission phase (R225). `note` is the session of a NOTIFY. -/
def svcOut (s : State) (c : Client) (msg : Octets) (note : Option (Fin 8)) : State :=
  match c with
  | .field _ _ => { s with svc := { s.svc with outQ := s.svc.outQ ++ [{ dest := c, octets := msg, note := note }] } }
  | .peer _ => { s with svc := { s.svc with outQ := s.svc.outQ ++ [{ dest := c, octets := msg, note := note }] } }
  | .own => { s with svc := { s.svc with ringIn := s.svc.ringIn ++ [(false, msg)] } }
  | .udp _ _ => if s.unitDown .mgp then s else s.send (.svc c msg)

/-! ## The Helm -/

/-- The level of a session, 0 when it is not open. -/
def State.sesLevel (s : State) (k : Nat) : Nat := ((s.ses k).map fun x => x.level.toNat).getD 0

/-- The path code of a session, 0 when it is not open. -/
def State.sesPath (s : State) (k : Nat) : Nat := ((s.ses k).map fun x => x.client.path).getD 0

/-- The lease of R292 in tides. -/
def State.leaseTides (s : State) : Nat := s.tides 30000

/-- The value of 0o140000 HELM_HOLDER (R299). -/
def helmVal (s : State) : Octets :=
  let h := s.svc.helm
  let sz : Byte := (h.seizer.map fun k => BitVec.ofNat 8 k.val).getD 0xFF
  match h.holder with
  | none => [b2n h.seizer.isSome * 64 |> BitVec.ofNat 8, 0, 0, sz, 0, 0]
  | some k =>
    let left := if reached s.now h.leaseEnd then 0 else tideGap h.leaseEnd s.now
    [BitVec.ofNat 8 (128 + b2n h.seizer.isSome * 64 + k.val), BitVec.ofNat 8 (s.sesLevel k.val),
     BitVec.ofNat 8 (s.sesPath k.val), sz] ++ be 2 (min left 65535)

/-- A NOTIFY body (R290). -/
def notifyBody (sub status entry index : Nat) (t : Tide) (val : Octets) : Octets :=
  [BitVec.ofNat 8 sub, BitVec.ofNat 8 status] ++ be 3 entry ++ be 3 index ++ be 5 t.toNat ++ be 2 val.length ++ val

/-- The unsent NOTIFYs of session k: in its queue, and on their way to its path (R290). -/
def unsentNotes (s : State) (k : Nat) : Nat :=
  let own (m : OutMsg) : Bool := m.note.any fun j => j.val = k
  ((s.ses k).map fun x => x.notes.length).getD 0 + (s.svc.outQ.filter own).length + (s.svc.frags.filter own).length

/-- Session k's queue takes a NOTIFY: fewer than 256 are unsent, and none waits for a place. -/
def queueRoom (s : State) (k : Nat) : Bool :=
  ((s.ses k).map fun x => x.late.isEmpty).getD false && decide (unsentNotes s k < 256)

/-- Put a NOTIFY body at the end of session k's queue, or of those that wait for a free place in it. -/
def queueNote (s : State) (k : Nat) (body : Octets) : State :=
  let room := queueRoom s k
  s.modSes k fun x => if room then { x with notes := x.notes ++ [body] } else { x with late := x.late ++ [body] }

/-- Queue the Helm notice of R294 for the sessions named. -/
def helmNotify (s : State) (ks : List Nat) : State :=
  let body := notifyBody 0xFF 0 0o140000 0 s.now (helmVal s)
  ks.dedup.foldl (fun s k => queueNote s k body) s

/-- A HELM record (R409): cause, old and new holder with their levels, the new holder's path code. -/
def recHelm (s : State) (cause : Nat) (old new : Option (Fin 8)) (oldLvl newLvl newPath : Nat) : State :=
  let n (o : Option (Fin 8)) : Byte := (o.map fun k => BitVec.ofNat 8 k.val).getD 0xFF
  recMake s 4 false [BitVec.ofNat 8 cause, n old, n new, BitVec.ofNat 8 oldLvl, BitVec.ofNat 8 newLvl,
    BitVec.ofNat 8 newPath] []

/-- The session numbers of an optional holder. -/
def optK (o : Option (Fin 8)) : List Nat := (o.map Fin.val).toList

/-- Give the Helm to session k with a fresh lease, record the cause and tell both sessions (R291 to R294). -/
def helmGive (s : State) (k : Fin 8) (cause : Nat) : State :=
  let h := s.svc.helm
  let old := h.holder
  let s1 : State := { s with svc := { s.svc with helm :=
    { holder := some k, leaseEnd := tideAdd s.now s.leaseTides, seizer := none, seizeRid := 0, noticeEnd := 0 } } }
  let s2 := recHelm s1 cause old (some k) ((old.map fun j => s.sesLevel j.val).getD 0) (s.sesLevel k.val)
    (s.sesPath k.val)
  helmNotify s2 (optK old ++ [k.val])

/-! ## Slots and responses -/

/-- Slot rid of session k. -/
def State.slot (s : State) (k rid : Nat) : Option Slot :=
  (s.ses k).bind fun x => x.slots.getD rid none

/-- Put a slot into session k. -/
def State.setSlot (s : State) (k rid : Nat) (sl : Slot) : State :=
  s.modSes k fun x => { x with slots := listMod x.slots rid fun _ => some sl }

/-- A RESPONSE body (R283). -/
def respBody (q : Req) (status : Nat) (tx ift : Tide) (data : Octets) : Octets :=
  [q.op, BitVec.ofNat 8 (b2n q.fence * 128 + q.rid.toNat)] ++ be 2 q.rn.toNat ++ [BitVec.ofNat 8 status]
    ++ be 3 q.entry.toNat ++ be 3 q.index.toNat ++ be 5 tx.toNat ++ be 5 ift.toNat ++ be 2 data.length ++ data

/-- A message on its way out that is no NOTIFY of session k any more. -/
def OutMsg.unmark (m : OutMsg) (k : Nat) : OutMsg := if m.note.any fun j => j.val = k then { m with note := none } else m

/-- The sessions without session k: its requests, subscriptions and messages that wait are gone (R280), and its posted
requests without a response are given up (R360). -/
def State.noSes (s : State) (k : Nat) : State :=
  { s with
    svc := { s.svc with
      outQ := s.svc.outQ.map fun m => m.unmark k, frags := s.svc.frags.map fun m => m.unmark k,
      ses := listMod s.svc.ses k fun _ => none, inbox := s.svc.inbox.filter fun m => m.ses.map Fin.val ≠ some k,
      posted := s.svc.posted.map fun p => if !p.path && p.ses.toNat = k && p.ift.isNone then { p with gaveUp := true } else p },
    dict := { s.dict with commitBy := s.dict.commitBy.filter fun x => x.1.val ≠ k } }

/-- What the end of a session does to the Helm where no other session seizes it: a holder frees it, a seizer's notice ends with
the Helm where it was, and R294 names no session for it (R280, R292 to R294). -/
def helmSesEnd (s : State) (k : Fin 8) : State :=
  let h := s.svc.helm
  if h.holder = some k then
    recHelm { s with svc := { s.svc with helm := {} } } 7 (some k) none (s.sesLevel k.val) 0 0
  else if h.seizer = some k then
    { s with svc := { s.svc with helm := { h with seizer := none, seizeRid := 0, noticeEnd := 0 } } }
  else s

/-- Put out a message of session k under its counter; a SVC in reset sends nothing (R328). -/
def sesPut (s : State) (k : Fin 8) (typ : Nat) (body : Octets) : State :=
  match s.ses k.val with
  | none => s
  | some x =>
    if s.unitDown .svc then s
    else
      let cnt := x.txCnt + 1
      svcOut (s.modSes k.val fun y => { y with txCnt := cnt }) x.client
        (svcMessage ((s.key x.level.toNat).getD []) (be 8 x.nc.toNat) (be 8 x.nm.toNat) typ k.val x.level.toNat cnt body)
        (if typ = 4 then some k else none)

/-- The request in slot rid of session k is done: its RESPONSE is stored and put out (R283, R286). -/
def slotDone (s : State) (k : Fin 8) (rid : Nat) (status : Nat) (tx ift : Tide) (data : Octets) : State :=
  match s.slot k.val rid with
  | none => s
  | some sl =>
    let body := respBody sl.req status tx ift data
    sesPut (s.setSlot k.val rid { sl with st := .done, ift := ift, resp := body }) k 3 body

/-- The Helm goes to the seizing session, and its request is done (R293). -/
def seizeDone (s : State) (z : Fin 8) : State :=
  let rid := s.svc.helm.seizeRid.toNat
  let s1 := helmGive s z 5
  slotDone s1 z rid 0 s1.now s1.now (helmVal s1)

/-- Session k goes, with the Helm: a holder leaves it to a waiting seizer (R280, R293). -/
def sesGone (s : State) (k : Fin 8) : State :=
  let h := s.svc.helm
  match h.seizer with
  | some z => if h.holder = some k ∧ z ≠ k then (seizeDone s z).noSes k.val else (helmSesEnd s k).noSes k.val
  | none => (helmSesEnd s k).noSes k.val

/-- The module's counter of session k has reached its last value (R279). -/
def sesSpent (s : State) (k : Fin 8) : Bool := (s.ses k.val).any fun x => x.txCnt.toNat = 0xFFFFFFFF

/-- End session k: its requests and subscriptions go, and the Helm is released (R280). A seizer whose last counter value its
answer took ends after it (R279). -/
def endSession (s : State) (k : Fin 8) : State :=
  match s.ses k.val with
  | none => s
  | some _ =>
    let s1 := sesGone s k
    match s.svc.helm.seizer with
    | some z => if sesSpent s1 z then sesGone s1 z else s1
    | none => s1

/-- Send a message of session k under its counter. At the last counter value the session ends (R279, R280). -/
def sesSend (s : State) (k : Fin 8) (typ : Nat) (body : Octets) : State :=
  let s1 := sesPut s k typ body
  if sesSpent s1 k then endSession s1 k else s1

/-- Complete the request in slot rid of session k: its RESPONSE is stored and sent (R283, R286). -/
def complete (s : State) (k : Fin 8) (rid : Nat) (status : Nat) (tx ift : Tide) (data : Octets) : State :=
  let s1 := slotDone s k rid status tx ift data
  if sesSpent s1 k then endSession s1 k else s1

/-- Grant the Helm to the seizing session and complete its request (R293). -/
def seizeGrant (s : State) (z : Fin 8) : State :=
  let s1 := seizeDone s z
  if sesSpent s1 z then endSession s1 z else s1

/-- All eight session numbers. -/
def sesNums : List (Fin 8) := List.finRange 8

/-- End every session that satisfies p. -/
def endSessions (s : State) (p : Session → Bool) : State :=
  sesNums.foldl (fun s k => match s.ses k.val with
    | some x => if p x then endSession s k else s
    | none => s) s

/-- The Helm becomes free (R292): a waiting seizer gets it at once (R293). -/
def helmFree (s : State) (cause : Nat) : State :=
  let h := s.svc.helm
  match h.holder with
  | none => s
  | some k =>
    match h.seizer with
    | some z =>
      let s1 := recHelm s cause (some k) none (s.sesLevel k.val) 0 0
      seizeGrant s1 z
    | none =>
      let s1 : State := { s with svc := { s.svc with helm := {} } }
      helmNotify (recHelm s1 cause (some k) none (s.sesLevel k.val) 0 0) [k.val]

end Sys2Proof.Machine
end

