-- ==== Sys2Proof/Machine/Catalog.lean ====
section
/-!
DEFINITION. The entries of the object dictionary with their types and floors (R267, R300, R301, R303, R308 to R313 and the
tables they name), the protection table (R269, R270), and the queue of a subscription's reports (R289, R290).
-/

namespace Sys2Proof.Machine

/-! ## Entries -/

/-- An entry: how many indexes it has (none for an entry without index), the octets of a value, the bits of a numeric
value (0 for octets taken as they are), and the floor octet. -/
structure Ent where
  idx : Option Nat
  len : Nat
  bits : Nat
  floor : Byte
  deriving DecidableEq, Repr

/-- A numeric entry without index. -/
def entU (bits : Nat) (floor : Byte) : Ent := ⟨none, (bits + 7) / 8, bits, floor⟩

/-- An octet entry without index. -/
def entO (len : Nat) (floor : Byte) : Ent := ⟨none, len, 0, floor⟩

/-- An indexed octet entry. -/
def entI (n len : Nat) (floor : Byte) : Ent := ⟨some n, len, 0, floor⟩

/-- Identity, module state, tide and events. -/
def catalogA : List (Nat × Ent) :=
  [(0o000000, entO 16 4), (0o000001, entO 16 4), (0o000002, entU 18 4), (0o000003, entU 36 4), (0o000004, entO 32 4),
   (0o000005, entO 32 4), (0o000006, entU 9 4)] ++
  [(0o010000, entU 9 4), (0o010001, entO 65 0x08), (0o010002, entO 65 0x10), (0o010003, entU 9 0x12),
   (0o010004, entU 9 0x1A), (0o010005, entO 129 4), (0o010010, entU 9 0x10), (0o010011, entO 9 4)] ++
  [(0o020000, entU 9 0x1A), (0o020001, entU 36 4), (0o020002, entO 16 0x10)] ++
  [(0o030000, entI 18 20 4), (0o030001, entI 18 3 0x10), (0o030002, entI 18 6 0x1A), (0o030003, entI 18 3 0x1A),
   (0o030100, entO 10 4)]

/-- Ports, twin, local I/O, timers, check engines and fuses. -/
def catalogB : List (Nat × Ent) :=
  [(0o040000, entI 4 24 4), (0o040010, entI 8192 25 4), (0o040020, ⟨some 8192, 2, 9, 0x10⟩)] ++
  [(0o050000, entU 9 4), (0o050001, entO 16 4), (0o050002, entU 9 0x10), (0o050003, entO 30 4), (0o050004, entO 8 4),
   (0o050005, entO 64 4), (0o050006, entU 18 4)] ++
  [(0o060000, entO 12 4), (0o060001, entO 8 4), (0o060002, entO 6 4), (0o060010, entI 16 12 4)] ++
  [(0o070000, entI 16 18 4), (0o074000, entI 4 17 4)] ++
  [(0o076000, entI 1024 4 4), (0o076001, entI 2 64 4), (0o076010, entO 5 0x1A), (0o076011, entU 9 0x1A),
   (0o076020, entO 8 0x1A), (0o076021, entO 3 4)]

/-- Manifest management, power, recorder, sessions and the views. -/
def catalogC : List (Nat × Ent) :=
  [(0o100000, entO 32 4), (0o100001, entO 32 4), (0o100002, entU 36 4), (0o100003, entU 9 4), (0o100004, entU 9 4),
   (0o100005, entO 4 4), (0o100010, entU 18 0x10), (0o100011, entO 32 0x18), (0o100012, entO 32 4),
   (0o100013, entO 64 4), (0o100020, entI 0o136400 1024 0x30)] ++
  [(0o120000, entO 16 4), (0o120001, entU 9 0x10), (0o120002, entO 12 4), (0o120003, entU 9 0x10),
   (0o120100, entO 32 4)] ++
  [(0o140000, entO 6 4), (0o140010, entI 8 24 4), (0o140020, ⟨some 8, 2, 9, 0x18⟩), (0o140030, entU 36 0x10),
   (0o140200, entI 4 32 0x38)] ++
  [(0o200000, ⟨some 262144, 3, 18, 4⟩), (0o200001, entI 262144 9 4), (0o200002, ⟨some 262144, 3, 18, 4⟩),
   (0o200003, entI 262144 9 4), (0o210000, ⟨some 262144, 3, 18, 4⟩), (0o210001, ⟨some 262144, 3, 18, 4⟩),
   (0o210002, entI 262144 6 4), (0o210003, entI 262144 6 4)]

/-- The entry of a number, if any uses it. -/
def entOf (e : Nat) : Option Ent :=
  if 0o121000 ≤ e && e ≤ 0o121037 then some (entI 262144 1024 4)
  else if 0o160000 ≤ e && e ≤ 0o177777 then some (entO 32 0x18)
  else ((catalogA ++ catalogB ++ catalogC).find? fun x => x.1 = e).map (·.2)

/-- The floor of an entry number; 0x24 for one that no entry uses (R270, R301). -/
def floorOf (e : Nat) : Byte := ((entOf e).map (·.floor)).getD 0x24

/-! ## Protection (R269, R270) -/

/-- The octet in force for an entry number. -/
def protOf (s : State) (e : Nat) : Byte := cellGet (floorOf e) s.dict.prot e

/-- RNONE, RL, WNONE, WL, MM and GM of an octet. -/
def pRNone (b : Byte) : Bool := b.getLsbD 5
def pRL (b : Byte) : Nat := fld b 7 6
def pWNone (b : Byte) : Bool := b.getLsbD 2
def pWL (b : Byte) : Nat := fld b 4 3
def pMM (b : Byte) : Bool := b.getLsbD 1
def pGM (b : Byte) : Bool := b.getLsbD 0

/-- An octet that breaks R269. -/
def protBad (b : Byte) : Bool :=
  (pRNone b && pRL b ≠ 0) || (pWNone b && (pWL b ≠ 0 || pMM b || pGM b))

/-- An octet is weaker than a floor (R270). -/
def protWeaker (b f : Byte) : Bool :=
  let rd := if pRNone f then !pRNone b else !pRNone b && decide (pRL b < pRL f)
  let wr := if pWNone f then !pWNone b
    else !pWNone b && (decide (pWL b < pWL f) || (pMM f && !pMM b) || (pGM f && !pGM b))
  rd || wr

/-- A session of a level may read an entry. -/
def mayRead (s : State) (lvl e : Nat) : Bool := !pRNone (protOf s e) && pRL (protOf s e) ≤ lvl

/-- A session of a level may write an entry. -/
def mayWrite (s : State) (lvl e : Nat) : Bool := !pWNone (protOf s e) && pWL (protOf s e) ≤ lvl

/-! ## Reports (R289, R290) -/

/-- Change subscription n of session k. -/
def State.modSub (s : State) (k n : Nat) (f : Sub → Sub) : State :=
  s.modSes k fun x => { x with subs := x.subs.map fun u => if u.num.toNat = n then f u else u }

/-- Drop subscription n of session k. -/
def dropSub (s : State) (k n : Nat) : State :=
  s.modSes k fun x => { x with subs := x.subs.filter fun u => u.num.toNat ≠ n }

/-- A subscription reports a value: with the read right lost it ends with status 0x03; with the queue full it ends with status
0x0F, in the first free place. -/
def reportSub (s : State) (k : Nat) (u : Sub) (t : Tide) (val : Octets) : State :=
  let last (status : Nat) : State :=
    dropSub (queueNote s k (notifyBody u.num.toNat status u.entry.toNat u.index.toNat t [])) k u.num.toNat
  if !mayRead s (s.sesLevel k) u.entry.toNat then last 3
  else if !queueRoom s k then last 0x0F
  else
    (queueNote s k (notifyBody u.num.toNat 0 u.entry.toNat u.index.toNat t val)).modSub k u.num.toNat
      fun u => { u with lastVal := val }

/-- Every open subscription with the number of its session. -/
def allSubs (s : State) : List (Nat × Sub) :=
  (List.range 8).flatMap fun k => ((s.ses k).map fun x => x.subs.map fun u => (k, u)).getD []

end Sys2Proof.Machine
end

