-- ==== Sys2Proof/Machine/Ops.lean ====
section
/-!
DEFINITION. Event sources and reactions: what a source does when it fires (R319 to R324), settling (R328), the decision to
moor and what follows from it (R330, R251, R223), a change of twin role (R258), the reset of a block (R328, R398, R399).
-/

namespace Sys2Proof.Machine

/-! ## Phases -/

/-- A phase begins (R49): its code, and the tick of its position in µs at 2 ms. Commands that have run the tick past it
leave it there. -/
def enterPhase (s : State) (ph : BitVec 3) (us : Nat) : State :=
  { s with tide := { s.tide with ph := ph, tick := if s.tide.tick < Config.tickAt us then Config.tickAt us else s.tide.tick } }

/-- A position within a phase is reached. -/
def reachTick (s : State) (us : Nat) : State := enterPhase s s.tide.ph us

/-! ## Event registers -/

/-- The event registers a block's sources act on; those of EVB stand on the B-die (R322). -/
def State.evOf (s : State) (b : Nat) : EvBlock := if b = 3 then s.evb else s.ev.getD b (EvBlock.initial b)

/-- Change a block's event registers where its sources act on them. -/
def State.modEv (s : State) (b : Nat) (f : EvBlock → EvBlock) : State :=
  if b = 3 then { s with evb := f s.evb } else { s with ev := listMod s.ev b f }

/-- The severity in force of local source j of a block's registers (R316). -/
def EvBlock.sev (e : EvBlock) (j : Nat) : Nat :=
  if j < 9 then fld e.sevL (2 * j + 1) (2 * j) else fld e.sevH (2 * (j - 9) + 1) (2 * (j - 9))

/-- The severity in force of a global source; EVB's are fixed (R322). -/
def State.sevOf (s : State) (src : Nat) : Nat :=
  let b := Config.blockOf src
  if b = 3 then (Config.sevDefault src).toNat else (s.evOf b).sev (src - Config.baseOf b)

/-- A source is dependent on a unit whose settling is asserted (R328). -/
def State.settling (s : State) (src : Nat) : Bool :=
  s.settle.any fun x => (Config.dependents x.1).contains src

/-- The severity a firing applies: Degrade with no group, or of a source whose row names none, is Moor (R320), and a settling
source is capped at Alert (R328). -/
def State.applied (s : State) (src : Nat) (gs : GSet) : Nat :=
  let sv := s.sevOf src
  let sv := if sv = 2 ∧ (gs = 0 ∨ Config.namesGroups src = false) then 3 else sv
  if s.settling src then min sv 1 else sv

/-- The groups of a set that are not fault-moored yet. -/
def newGroups (s : State) (gs : GSet) : GSet := gMinus gs (s.moor.faultG ||| s.a.degrade ||| s.b.degrade)

/-- The EVENT record (R409): ACT is 0 fired, 1 cleared, 2 cleared by the B-die. -/
def recEvent (s : State) (src : Nat) (conseq : Bool) (act sev blk added : Nat) (subj : BitVec 32) (bd : Bool) : State :=
  recMake s 2 bd ([BitVec.ofNat 8 src, BitVec.ofNat 8 (b2n conseq * 128 + act * 16 + sev), BitVec.ofNat 8 blk]
    ++ be 2 added ++ be 4 subj.toNat) []

/-- FIRST takes a firing of source src at applied severity sv (R324): it holds none, or what it holds fired in the same cycle
(the same tick here, log 33) and gives way to the higher severity, at equal severity to the lower number. -/
def EvBlock.firstTakes (e : EvBlock) (now : Tide) (tick : BitVec 12) (src sv : Nat) : Bool :=
  decide (1 ≤ sv) && (e.fSrc = 0o377 || (e.fSrc ≠ 0o376 && e.fTide = now && e.fTick = tick
    && (decide (e.fSev.toNat < sv) || (decide (e.fSev.toNat = sv) && decide (src < e.fSrc.toNat)))))

/-- Set the STAT bit and FIRST (R319, R324) under an applied severity, and record a change from 0 to 1. -/
def evSetAt (s : State) (src : Nat) (gs : GSet) (subj : BitVec 32) (bd : Bool) (sv : Nat) : State :=
  let b := Config.blockOf src
  let j := src - Config.baseOf b
  let cq := s.settling src
  let e := s.evOf b
  let s1 := s.modEv b fun e =>
    let e := { e with
      since := if e.src.getLsbD j then e.since else listMod e.since j fun _ => some s.now,
      src := setBit e.src j true, last := listMod e.last j fun _ => some s.now }
    if e.firstTakes s.now s.tide.tick src sv then
      { e with fSev := BitVec.ofNat 2 sv, fConseq := cq, fSrc := BitVec.ofNat 8 src, fTide := s.now,
               fTick := s.tide.tick }
    else e
  if e.src.getLsbD j then s1
  else recEvent s1 src cq 0 sv b (if sv = 2 then countIf (List.range 512) (gHas (newGroups s gs)) else 0) subj (bd || b = 3)

/-- Set the STAT bit and FIRST under the severity in force. -/
def evSet (s : State) (src : Nat) (gs : GSet) (subj : BitVec 32) (bd : Bool) : State :=
  evSetAt s src gs subj bd (s.applied src gs)

/-- The comparison and overrun findings, which always count for the tide they concern (R329). -/
def isFinding (src : Nat) : Bool := src ≤ 2 || (8 ≤ src && src ≤ 13)

/-- Degrade: the groups enter the fault moor set at the fence of this tide, or of the next one when the exchange of the
tide has passed (R329). The overrun findings enter each die's final set of this tide; those of the comparison count for
this tide too, and reach the other die in the verdict. -/
def degradeAdd (s : State) (d : Die) (src : Nat) (gs : GSet) : State :=
  let s1 : State := { s with moor := { s.moor with
    newG := s.moor.newG ||| gs, gSrc := s.moor.gSrc ++ (gList gs).map fun g => (g, src) } }
  if isFinding src then
    if src ≤ 2 then { s1 with a := { s1.a with found := s1.a.found ||| gs }, b := { s1.b with found := s1.b.found ||| gs } }
    else { s1 with moor := { s1.moor with cmpG := s1.moor.cmpG ||| gs } }
  else if s.moor.exchanged then s1.setDie d { s1.die d with degradeNext := (s1.die d).degradeNext ||| gs }
  else s1.setDie d { s1.die d with degrade := (s1.die d).degrade ||| gs }

/-- A die's commands to every output are gone (R26, R27). -/
def dropCommands (s : State) (d : Die) : State :=
  { s with lio := match d with
    | .A => { s.lio with cmdA := 0, wantA := 0, switching := List.replicate 16 10 }
    | .B => { s.lio with cmdB := 0, wantB := 0, switching := List.replicate 16 10 } }

/-- A die decides to moor the module and signals the other die (R330). Its commands go at the next intake close; where no
tide runs, because the A-die is in reset, at once (R27, log 87). -/
def moorDecide (s : State) (d : Die) (src : Option Nat) : State :=
  let s0 := if s.tide.running then s else dropCommands s d
  let s1 := s0.setDie d { s0.die d with mooring := true }
  { s1 with moor := { s1.moor with
      pendM := true, newM := true, mSrc := s1.moor.mSrc ++ src.toList,
      toA := s1.moor.toA || (d = .B), toB := s1.moor.toB || (d = .A) } }

/-- The die that detects a source: the B-die for EVB, otherwise as told. -/
def detector (src : Nat) (bd : Bool) : Die := if Config.blockOf src = 3 || bd then .B else .A

/-- A source fires: registers, record and severity, without what a decision of the A-die draws after it. -/
def fireCore (s : State) (src : Nat) (gs : GSet) (subj : BitVec 32) (bd : Bool) : State :=
  let sv := s.applied src gs
  let s1 := evSet s src gs subj bd
  if sv = 2 then degradeAdd s1 (detector src bd) src gs
  else if sv = 3 then moorDecide s1 (detector src bd) (some src)
  else s1

/-! ## Roles -/

/-- Counters that start anew when a unit enters a role (R258, R262, R263). -/
def TwinSt.enter (t : TwinSt) (r : Role) (now : Tide) : TwinSt :=
  { t with role := r, roleNext := none, resyncCnt := 0, segs := 0, resyncHb := 0, stalled := false, noLeader := 0,
           noPeer := 0, inputSeen := false, unsettled := none,
           seenOff := if r = .isoSilent then t.seenOff else 0, seenOn := 0, diffRun := [],
           holdSince := now }

/-- The commanded set of a unit that leaves Resync: a Follower's is the adopted one, any other unit keeps its own beside it
(R255). -/
def MoorSt.leaveResync (m : MoorSt) (r : Role) : MoorSt :=
  if r = .follower then { m with cmdG := m.adG, cmdM := m.adM, adG := 0, adM := false }
  else { m with cmdG := m.cmdG ||| m.adG, cmdM := m.cmdM || m.adM, adG := 0, adM := false }

/-- The twin role changes: TWIN record and HWS source 87 (R258). -/
def roleSet (s : State) (r : Role) (cause : BitVec 8) : State :=
  let s1 := recTwin s s.twin.role r cause
  let m := if s1.twin.role = .resync then s1.moor.leaveResync r else s1.moor
  fireCore { s1 with twin := s1.twin.enter r s.now, moor := m } 87 0 0 false

/-! ## Mooring by fault -/

/-- Whether a field lane is up. -/
def Port.up (p : Port) (l : Lane) : Bool :=
  match l with
  | .A => p.upA
  | .B => p.upB

/-- Change the intake. -/
def State.modIntake (s : State) (f : Intake → Intake) : State := { s with intake := f s.intake }

/-- Port n. -/
def State.port (s : State) (n : Nat) : Port := s.ports.getD n {}

/-- Change port n. -/
def State.modPort (s : State) (n : Nat) (f : Port → Port) : State := { s with ports := listMod s.ports n f }

/-- The field lanes, port by port. -/
def fieldLanes : List (Fin 4 × Lane) := (List.finRange 4).flatMap fun p => [(p, Lane.A), (p, Lane.B)]

/-- The unit's own identity (R427). -/
def State.unitBit (s : State) : Bool := s.twin.unitId.getLsbD 0

/-- The MOOR frame (R223). -/
def moorLst (s : State) (l : Lane) : Lst :=
  lstSign s.salt { kind := 4, src := s.netA.zone, dst := 0o777777, tide := s.now, lane := l, unit := s.unitBit,
                   subseq := 0, payload := [0x01], sigA := 0, sigB := 0 }

/-- A lane of a port carries frames: it is up (R207), and its port engine is not in reset (R398). -/
def laneUp (s : State) (p : Nat) (l : Lane) : Bool :=
  (s.port p).up l && !(List.finRange 4).any fun k => k.val = p && s.unitDown (.fpe k)

/-- The first n frames of a lane's queue go out, unless the lane is down (R207). -/
def laneLeaves (s : State) (p : Fin 4) (l : Lane) (q : List Lst) (n : Nat) : State :=
  if !laneUp s p.val l then s
  else
    let out := q.take n
    let s1 := s.sendAll (out.map fun f => .lst (.field p l) f)
    match l with
    | .A => s1.modPort p.val fun x => { x with txNow := out.foldl (fun w _ => sat18 w) x.txNow }
    | .B => s1

/-- A port drops its queue (R251, R399); in the emission phase the frames that had started by then have gone out, as many of
each lane as a free value says (log 14). -/
def portDrops (s : State) (p : Fin 4) : State :=
  let x := s.port p.val
  let s1 :=
    if s.tide.ph = 4 then
      { laneLeaves (laneLeaves s p .A x.queueA (Config.startedBy s.draws)) p .B x.queueB (Config.startedBy (s.draws + 1)) with
        draws := s.draws + 2 }
    else s
  s1.modPort p.val fun x => { x with queueA := [], queueB := [], held := [] }

/-- A Solo unit from Moored on sends MOOR on every lane that is up, at most one per lane in a tide (R223, R397). The B-die
builds its own signature (R216): without it none leaves. -/
def moorFrames (s : State) : State :=
  if s.twin.role = .solo && s.mode = .live && s.runs .A && s.runs .B && s.moor.moorFrameAt ≠ some s.now then
    let s1 := s.sendAll ((fieldLanes.filter fun x => laneUp s x.1.val x.2).map fun x =>
      .lst (.field x.1 x.2) (moorLst s x.2))
    { s1 with
      moor := { s1.moor with moorFrameAt := some s.now },
      ports := s1.ports.mapIdx fun k p => if laneUp s k .A then { p with txNow := sat18 p.txNow } else p }
  else s

/-- What the A-die does at a decision (R330): queued frames are dropped, a Solo unit sends MOOR (in guard, at the next
tide start), and a Leader, Follower or Isolated follower goes to Resync at once (R251, R258). -/
def moorEffects (s : State) : State :=
  let s0 := (List.finRange 4).foldl portDrops s
  let s1 : State := { s0 with twin := { s0.twin with mirQueue := [] } }
  match s1.twin.role with
  | .solo =>
    if s1.tide.ph = 5 then { s1 with moor := { s1.moor with moorFrameDue := true } } else moorFrames s1
  | .resync => s1
  | _ => roleSet s1 .resync 1

/-! ## Block resets (R328) -/

/-- The unit a source resets. -/
def resetUnit (src : Nat) : Option RstUnit :=
  if src = 55 then some (.fpe 0) else if src = 63 then some (.fpe 1) else if src = 71 then some (.fpe 2)
  else if src = 79 then some (.fpe 3) else if src = 93 then some .mgp else if src = 143 then some .svc
  else if src = 132 then some (.pws .A) else if src = 133 then some (.pws .B) else none

/-- A block is reset as a reaction: settling starts, a port engine drops its queue (R399), the sessions of the block's
failed path end (R298, R323), and a SVC gives up what the partition posted (R400). -/
def unitReset (s : State) (u : RstUnit) (path : Nat) : State :=
  let s1 : State := { s with
    settle := (s.settle.filter fun x => x.1 ≠ u) ++ [(u, tideAdd s.now (Config.settleTides u))] }
  match u with
  | .fpe n =>
    let s2 := portDrops s1 n
    { s2 with resets := (s2.resets.filter fun x => x.1 ≠ u) ++ [(u, s.now)] }
  | .mgp =>
    let s2 := endSessions s1 fun x => x.client.path = 0
    { s2 with resets := (s2.resets.filter fun x => x.1 ≠ u) ++ [(u, s.now)] }
  | .svc =>
    let s2 := endSessions s1 fun x => x.client.path = path
    { s2 with
      resets := (s2.resets.filter fun x => x.1 ≠ u) ++ [(u, s.now)],
      svc := { s2.svc with failPath := BitVec.ofNat 2 path, posted := s2.svc.posted.map fun p => if p.ift.isNone then { p with gaveUp := true } else p } }
  | .pws _ => s1

/-! ## Firing -/

/-- A source fires (R319): `gs` is its affected set (R320), `subj` the subject its record names, `bd` that the B-die
found it. A die held in reset has no detectors of its own. -/
def fireAt (s : State) (src : Nat) (gs : GSet) (subj : BitVec 32) (bd : Bool) : State :=
  let d := detector src bd
  if !s.runs d then s
  else
    let sv := s.applied src gs
    let s1 := fireCore s src gs subj bd
    let s2 := if sv = 3 && d = .A then moorEffects s1 else s1
    match resetUnit src with
    | some u => unitReset s2 u (subj.toNat % 4)
    | none => s2

/-- A source found by the A-die, or by the B-die when it is one of EVB. -/
def fire (s : State) (src : Nat) (gs : GSet) (subj : BitVec 32) : State := fireAt s src gs subj false

/-- A source whose row names no group. -/
def fire1 (s : State) (src : Nat) : State := fire s src 0 0

/-- Fire when a condition holds. -/
def fireIf (s : State) (c : Bool) (src : Nat) : State := if c then fire1 s src else s

/-- Sources that fire in one cycle: the higher applied severity first, then the lower number (R324). -/
def fireAll (s : State) (l : List (Nat × GSet × BitVec 32)) : State :=
  (sortBy (fun x y => decide (s.applied y.1 y.2.1 < s.applied x.1 x.2.1)
      || (decide (s.applied y.1 y.2.1 = s.applied x.1 x.2.1) && decide (x.1 ≤ y.1))) l).foldl
    (fun s x => fire s x.1 x.2.1 x.2.2) s

/-- The B-die applies its reaction table to a finding of its own of LIO sources 98 to 100: it moors the module, and with that
BELL_B stops (R205, R322). -/
def reactB (s : State) : State := if s.runs .B then moorDecide s .B none else s

/-- The signal of the other die's decision arrives: this die decides too (R330). -/
def moorSignal (s : State) (d : Die) : State :=
  let due := match d with
    | .A => s.moor.toA
    | .B => s.moor.toB
  if !due then s
  else
    let s0 : State := { s with moor := match d with
      | .A => { s.moor with toA := false }
      | .B => { s.moor with toB := false } }
    if !s0.runs d then s0
    else
      let s1 := s0.setDie d { s0.die d with mooring := true }
      match d with
      | .A => moorEffects s1
      | .B => s1

/-! ## Moor sets in force -/

/-- The commanded set: its groups. -/
def MoorSt.comG (m : MoorSt) : GSet := m.cmdG ||| m.adG

/-- The commanded set: the module. -/
def MoorSt.comM (m : MoorSt) : Bool := m.cmdM || m.adM

/-- The groups moored in force by command or fault. -/
def State.mooredG (s : State) : GSet := s.moor.comG ||| s.moor.faultG

/-- Whether the module is moored in force: by command, by fault, or by the start-up mooring (R304, R395). -/
def State.mooredM (s : State) : Bool := s.moor.comM || s.moor.faultM || s.moor.startup

/-- The module is moored by its own fault reaction of Moor severity. -/
def State.faultMoored (s : State) : Bool := s.moor.faultM || s.moor.pendM

/-- A unit of a pair that a fault reaction of Moor severity has moored starts no frame but HEARTBEAT from the decision on
(R251, log 89). -/
def State.stopsSending (s : State) : Bool := s.twin.role ≠ .solo && (s.a.mooring || s.faultMoored)

/-- Group moored as R268 has it: the group itself, or the module. -/
def State.groupMoored (s : State) (g : Nat) : Bool := s.mooredM || gHas s.mooredG g

/-! ## Clearing -/

/-- Clear STAT.SRC bits of block b (R333, R334, R350): each bit that was 1 is recorded with ACT, its source no longer
keeps a mooring (R335, R336), and FIRST returns to its reset value when no bit is left (R324). -/
def evUnset (s : State) (b : Nat) (bits : BitVec 16) (act : Nat) : State :=
  let e := s.evOf b
  let js := (List.range 16).filter fun j => bits.getLsbD j && e.src.getLsbD j
  let srcs := js.map fun j => Config.baseOf b + j
  let s1 := s.modEv b fun e =>
    let e := { e with src := e.src &&& ~~~ bits }
    if e.src = 0 then { e with fSev := 0, fConseq := false, fSrc := 0o377, fTide := 0, fTick := 0 } else e
  let s2 : State := { s1 with moor := { s1.moor with
    gSrc := s1.moor.gSrc.filter fun x => !srcs.contains x.2,
    mSrc := s1.moor.mSrc.filter fun x => !srcs.contains x } }
  srcs.foldl (fun s src => recEvent s src false act (s.sevOf src) b 0 0 (b = 3)) s2

end Sys2Proof.Machine
end

