-- ==== Sys2Proof/Machine/Blocks.lean ====
section
/-!
DEFINITION. The 25 function blocks (R117 to R147), their initial states (R121), views (R124), alarms (R134, R142, R143,
R145, R183) and mirrored words (R244).
-/

namespace Sys2Proof.Machine

/-! ## Operands and results (R118, R119) -/

/-- A word counts as valid when Q is 00, or 01 during run-ahead (R118). -/
def wValid (w : Word) : Bool := qOf w ≤ 1

/-- A binary operand: none when it is invalid. -/
def binOp (w : Word) : Option Bool := if wValid w then some (w.getLsbD 0) else none

/-- An analogue operand: none when it is invalid. -/
def anaOp (w : Word) : Option Nat := if wValid w then some (valOf w) else none

/-- A valid output word. -/
def vWord (v : Nat) : Word := BitVec.ofNat 18 (v % 4096)

/-- A valid binary output word. -/
def bWord (b : Bool) : Word := vWord (b2n b)

/-- Output k of an occurrence in its substituted form (R119). -/
def subOut (n : Net) (i : Inst) (k : Nat) : Word := substWord (n.decl (i.outs.getD k 0).toNat)

/-- A determined output is valid, an undetermined one substituted (R120). -/
def detOut (n : Net) (i : Inst) (v : Option Bool) : Word :=
  match v with
  | some b => bWord b
  | none => subOut n i 0

/-- What an occurrence's evaluation gives: output words and its new state. -/
structure EvalOut where
  outs : List Word
  st : IState
  deriving DecidableEq, Repr

/-! ## Logic (R120, R126) -/

/-- AND of operands: 0 when any is a valid 0, 1 when all are valid 1. -/
def andVal (xs : List (Option Bool)) : Option Bool :=
  if xs.any (· == some false) then some false else if xs.all (· == some true) then some true else none

/-- OR of operands. -/
def orVal (xs : List (Option Bool)) : Option Bool :=
  if xs.any (· == some true) then some true else if xs.all (· == some false) then some false else none

/-- Majority of three. -/
def majVal (xs : List (Option Bool)) : Option Bool :=
  if 2 ≤ countIf xs (· == some true) then some true
  else if 2 ≤ countIf xs (· == some false) then some false else none

/-- SEL on analogue or binary values. -/
def selVal (sel : Option Bool) (d0 d1 : Option Nat) : Option Nat :=
  match sel with
  | some true => d1
  | some false => d0
  | none => if d0.isSome && d0 == d1 then d0 else none

/-! ## Flash cycle (R130) and press limits (R134) -/

/-- P of R130: round(60,000 / (F × T)), a half rounded up. -/
def flashP (f per : Nat) : Nat := (120000 + f * per) / (2 * (f * per))

/-- H of R130. -/
def flashH (f per : Nat) : Nat := (flashP f per + 1) / 2

/-- NMIN of R134. -/
def pressMin (per : Nat) : Nat := (100 + per - 1) / per

/-- NMAX of R134. -/
def pressMax (per : Nat) : Nat := 5000 / per

/-! ## Time blocks -/

/-- TON (R127). -/
def evTon (n : Net) (i : Inst) (x : Option Bool) (et : Nat) (prev1 : Bool) : EvalOut :=
  match x with
  | some true =>
    let et := if prev1 then min (et + 1) (i.par 0) else 0
    { outs := [bWord (et = i.par 0)], st := .ton et true }
  | some false => { outs := [bWord (decide (i.par 0 = 0))], st := .ton 0 false }
  | none => { outs := [subOut n i 0], st := .ton 0 false }

/-- TOF (R128). -/
def evTof (n : Net) (i : Inst) (x : Option Bool) (et : Nat) : EvalOut :=
  match x with
  | some true => { outs := [bWord true], st := .tof 0 }
  | some false => { outs := [bWord (decide (et < i.par 0))], st := .tof (min (et + 1) (i.par 0)) }
  | none => { outs := [subOut n i 0], st := .tof (i.par 0) }

/-- PULSE (R129). -/
def evPulse (n : Net) (i : Inst) (x : Option Bool) (rm : Nat) (known prev : Bool) : EvalOut :=
  match x with
  | some v =>
    let rm := if v && known && !prev && rm = 0 then i.par 0 else rm
    { outs := [bWord (decide (0 < rm))], st := .pulse (rm - 1) true v }
  | none => { outs := [subOut n i 0], st := .pulse 0 false false }

/-- FLASH (R130, R131). -/
def evFlash (n : Net) (i : Inst) (per : Nat) (en fbk : Option Bool) (ph : Nat) (fl fail s1 s0 : Bool) (bad : Nat) :
    EvalOut :=
  match en with
  | none => { outs := [subOut n i 0, bWord fail], st := .flash ph false fail false false 0 }
  | some false => { outs := [bWord false, bWord false], st := .flash ph false false false false 0 }
  | some true =>
    let p := flashP (i.par 0) per
    let ph := if fl then (ph + 1) % p else 0
    let fresh := ph = 0
    let bad := if fl then bad else 0
    let sup := i.par 1
    if sup = 0 then { outs := [bWord (decide (ph < flashH (i.par 0) per)), bWord false], st := .flash ph true false false false 0 }
    else
      let s1 := (s1 && !fresh) || fbk == some true
      let s0 := (s0 && !fresh) || fbk == some false
      let ends := ph + 1 = p
      let bad := if ends then (if s1 && s0 then 0 else min (bad + 1) 63) else bad
      let fail := fail || (decide ends && decide (sup ≤ bad))
      { outs := [bWord (decide (ph < flashH (i.par 0) per)), bWord fail], st := .flash ph true fail s1 s0 bad }

/-! ## State blocks -/

/-- LATCH (R133). -/
def evLatch (n : Net) (i : Inst) (set rst : Option Bool) (st : Bool) : EvalOut :=
  match rst with
  | some true => { outs := [bWord false], st := .latch false }
  | none => { outs := [subOut n i 0], st := .latch false }
  | some false =>
    let st := st || set == some true
    { outs := [bWord st], st := .latch st }

/-- RESTART (R134). -/
def evRestart (per : Nat) (moored : Bool) (cond btn : Option Bool) (rel stuck armed void : Bool) (len : Nat) : EvalOut :=
  let out (rel stuck armed void : Bool) (len : Nat) : EvalOut :=
    { outs := [bWord rel], st := .restart rel stuck armed void len }
  if !(cond == some true && !moored) then out false stuck false (btn != some false) 0
  else
    match btn with
    | none => out rel stuck false true 0
    | some true =>
      let armed := armed || (len = 0 && !stuck && !void)
      let len := if armed then min (len + 1) (pressMax per + 1) else len
      if armed && len = pressMax per + 1 then out rel true false void len else out rel stuck armed void len
    | some false =>
      let rel := rel || (armed && pressMin per ≤ len && len ≤ pressMax per)
      out rel false false false 0

/-- EDGE (R135). -/
def evEdge (n : Net) (i : Inst) (x : Option Bool) (prev : Prev) : EvalOut :=
  match x with
  | none => { outs := [subOut n i 0], st := .edge none }
  | some v =>
    let hit := match prev with
      | none => false
      | some p =>
        if i.par 0 = 0 then !p && v else if i.par 0 = 1 then p && !v else p != v
    { outs := [bWord hit], st := .edge (some v) }

/-! ## Contact pairs (R136 to R139) -/

/-- The pair logic of R136: DC, DISC and the pair value, none when substituted. -/
def pairStep (dt : Nat) (ca cb : Option Bool) (dc : Nat) (disc : Bool) : Nat × Bool × Option Bool :=
  match ca, cb with
  | some false, some false => (0, false, some false)
  | some true, some true => (0, disc, some (!disc))
  | some _, some _ =>
    let dc := min (dc + 1) dt
    (dc, disc || dc = dt, some false)
  | _, _ => (dc, disc, none)

/-- EQUIV and ANTIV (R136). -/
def evPair (n : Net) (i : Inst) (ca cb : Option Bool) (dc : Nat) (disc : Bool) : EvalOut :=
  let r := pairStep (i.par 0) ca cb dc disc
  { outs := [detOut n i r.2.2, bWord r.2.1], st := .pair r.1 r.2.1 0 false }

/-- ESTOP (R137). -/
def evEstop (n : Net) (i : Inst) (a : Option Bool) (b : Option (Option Bool)) (dc : Nat) (disc prev1 : Bool) : EvalOut :=
  let r := match b with
    | some b => pairStep (i.par 0) a b dc disc
    | none => (0, false, a)
  let is1 := r.2.2 == some true
  { outs := [detOut n i r.2.2, bWord r.2.1, bWord (prev1 && !is1)], st := .pair r.1 r.2.1 0 is1 }

/-- GUARD and CURTAIN (R138, R139). -/
def evProof (n : Net) (i : Inst) (ca cb : Option Bool) (dc : Nat) (disc : Bool) (ps : Nat) : EvalOut :=
  let r := pairStep (i.par 0) ca cb dc disc
  let bad := ca.isNone || cb.isNone
  let ps' := if ps = 2 then 2 else if bad then 0
    else if ps = 0 then (if ca == some false && cb == some false then 1 else 0)
    else if r.2.2 == some true then 2 else ps
  let safe := (n.decl (i.outs.getD 0 0).toNat).safe
  let out : Word := if ps' < 2 then BitVec.ofNat 18 (0o100000 + safe) else detOut n i r.2.2
  { outs := [out, bWord r.2.1], st := .pair r.1 r.2.1 ps' false }

/-! ## Analogue and trackside blocks -/

/-- WINDOW (R140). -/
def evWindow (n : Net) (i : Inst) (x : Option Nat) (g : Nat) (st : Bool) : EvalOut :=
  match x with
  | none => { outs := [subOut n i 0], st := .window 0 false }
  | some x =>
    if i.par 0 ≤ x && x ≤ i.par 1 then
      let g := min (g + 1) (i.par 3)
      let st := st || g = i.par 3
      { outs := [bWord st], st := .window g st }
    else if x + i.par 2 < i.par 0 || i.par 1 + i.par 2 < x then { outs := [bWord false], st := .window 0 false }
    else { outs := [bWord st], st := .window 0 st }

/-- Good and bad counts and ok of LAMP and HEAT (R141). -/
def judge (good : Bool) (deb b g : Nat) (ok : Bool) : Nat × Nat × Bool :=
  if good then
    let g := min (g + 1) deb
    (0, g, ok || g = deb)
  else
    let b := min (b + 1) deb
    (b, 0, ok && b ≠ deb)

/-- LAMP (R141). -/
def evLamp (i : Inst) (cmd : Option Bool) (cur : Option Nat) (hist : List Prev) (b g : Nat) (ok : Bool) : EvalOut :=
  let c := hist.getD (i.par 3 - 1) none
  let hist' := (cmd :: hist).take 8
  match c with
  | none => { outs := [bWord ok], st := .lamp hist' b g ok }
  | some c =>
    let good := match cur with
      | none => false
      | some x => if c then i.par 0 ≤ x && x ≤ i.par 1 else decide (x ≤ i.par 2)
    let r := judge good (i.par 4) b g ok
    { outs := [bWord r.2.2], st := .lamp hist' r.1 r.2.1 r.2.2 }

/-- HEAT (R142). -/
def evHeat (n : Net) (i : Inst) (dem : Option Bool) (cur : Option Nat) (hist : List Prev) (b g tc lk nt : Nat)
    (ok : Bool) : EvalOut :=
  let deb := i.par 5
  let r : Nat × Nat × Nat × Bool :=
    match hist.getD (i.par 4 - 1) none with
    | none => (tc, b, g, ok)
    | some true =>
      let ovc := match cur with
        | none => true
        | some x => decide (i.par 2 < x)
      let good := match cur with
        | none => false
        | some x => i.par 0 ≤ x && x ≤ i.par 1
      (if ovc then min (tc + 1) deb else 0, judge good deb b g ok)
    | some false =>
      let good := match cur with
        | none => false
        | some x => decide (x ≤ i.par 3)
      (0, judge good deb b g ok)
  let tc := r.1
  let b := r.2.1
  let g := r.2.2.1
  let ok := r.2.2.2
  let out (k : Option Bool) (tc lk nt : Nat) : EvalOut :=
    { outs := [detOut n i k, bWord ok], st := .heat ((k :: hist).take 8) b g tc lk nt ok }
  match dem with
  | none => out none tc lk nt
  | some false => out (some false) tc 0 0
  | some true =>
    if 0 < lk then out (some false) tc (lk - 1) nt
    else if nt = 3 then out (some false) tc lk nt
    else if deb ≤ tc then out (some false) 0 (i.par 6 - 1) (nt + 1)
    else out (some true) tc lk nt

/-- A rising edge: a valid 1 after a known valid 0 (R143, R145). -/
def rises (x : Option Bool) (prev : Prev) : Bool := x == some true && prev == some false

/-- AXPWR (R143). -/
def evAxpwr (i : Inst) (v cur : Option Nat) (ack rst : Option Bool) (trip : Bool) (tc since : Nat) (pwr : Bool)
    (prev : Prev) : EvalOut :=
  let trip := trip && !rises rst prev
  let ovc := match cur with
    | none => true
    | some x => decide (i.par 2 < x)
  let tc := if !trip && pwr then (if ovc then tc + 1 else 0) else tc
  let trips := !trip && pwr && decide (i.par 3 ≤ tc)
  let trip := trip || trips
  let tc := if trips then 0 else tc
  let pwr' := !trip
  let since := if pwr' && !pwr then 0 else min (since + 1) 0o377777
  let vOk := match v with
    | none => false
    | some x => i.par 0 ≤ x && x ≤ i.par 1
  let ok := pwr' && vOk && !ovc && (ack == some true || decide (since < i.par 4))
  { outs := [bWord pwr', bWord ok], st := .axpwr trip tc since pwr' rst }

/-- The next state of CROSS (R144). -/
def crossNext (i : Inst) (st c : Nat) (dem bdn bup : Bool) : Nat :=
  if st = 0 then (if dem then 1 else 0)
  else if st = 1 then (if c = i.par 1 then 2 else 1)
  else if st = 2 then (if bdn && !bup then 3 else if c = i.par 2 then 5 else 2)
  else if st = 3 then (if !bdn || bup then 5 else if !dem then 4 else 3)
  else if st = 4 then (if dem then 2 else if bup && !bdn then 0 else if c = i.par 3 then 5 else 4)
  else (if !dem then 4 else 5)

/-- CROSS (R144). -/
def evCross (i : Inst) (per : Nat) (dem bdn bup lok : Option Bool) (st c ph : Nat) : EvalOut :=
  let c := min (c + 1) 262143
  let st' := crossNext i st c (dem.getD true) (bdn.getD false) (bup.getD false)
  let c := if st' = st then c else 0
  let ph := if st = 0 then (if st' = 0 then ph else 0) else if st' = 0 then ph else (ph + 1) % flashP (i.par 0) per
  let lamp := st' ≠ 0 && ph < flashH (i.par 0) per
  { outs := [bWord lamp, bWord (decide (st' = 0 ∨ st' = 1 ∨ st' = 4)), bWord (st' = 3 && lok.getD false)],
    st := .cross st' c ph }

/-- COUNT (R145). -/
def evCount (i : Inst) (cnt rst : Option Bool) (c : Nat) (ovf : Bool) (pc pr : Prev) : EvalOut :=
  let z := rises rst pr
  let c := if z then 0 else c
  let ovf := ovf && !z
  let e := rises cnt pc
  let full := c = 262143
  let ovf := ovf || (e && full)
  let c := if e && !full then c + 1 else c
  { outs := [bWord (decide (i.par 0 ≤ c)), bWord ovf], st := .count c ovf cnt rst }

/-- SAFEOUT with its test schedule (R147, R148). -/
def evSafeout (n : Net) (i : Inst) (tide : Tide) (w : Word) : EvalOut :=
  let p := (i.outs.getD 0 0).toNat
  let d := n.decl p
  if !wValid w then { outs := [substWord d], st := .safeout false }
  else
    let v := valOf w
    let tp := n.testPeriod d.source
    let test := d.isLocal && tide.toNat % tp = i.par 0 % tp && (v % 2 = 1 || n.bright d.source)
    { outs := [BitVec.ofNat 18 (v + b2n test * 0o040000)], st := .safeout test }

/-! ## The catalogue as one function -/

/-- The initial state of R121. EDGE starts with no known value, ESTOP with an out that was not 1, CROSS with PH 0, which no rule
states (log 86). -/
def initState (i : Inst) : IState :=
  let op := i.op.toNat
  let h : List Prev := List.replicate 8 none
  if op = 0o020 then .ton 0 false
  else if op = 0o021 then .tof (i.par 0)
  else if op = 0o022 then .pulse 0 false false
  else if op = 0o023 then .flash 0 false false false false 0
  else if op = 0o030 then .latch false
  else if op = 0o031 then .restart false false false false 0
  else if op = 0o032 then .edge none
  else if 0o040 ≤ op ∧ op ≤ 0o044 then .pair 0 false 0 false
  else if op = 0o045 then .window 0 false
  else if op = 0o050 then .lamp h 0 0 false
  else if op = 0o051 then .heat h 0 0 0 0 0 false
  else if op = 0o052 then .axpwr false 0 0 false none
  else if op = 0o053 then .cross 0 0 0
  else if op = 0o054 then .count 0 false none none
  else if op = 0o060 then .safeout false
  else .none

/-- One evaluation of an armed occurrence (R117): its operand words, its state, the period, the tide number and whether
its group is moored in force. -/
def evalInst (n : Net) (per : Nat) (tide : Tide) (moored : Bool) (i : Inst) (ws : List Word) (st : IState) : EvalOut :=
  let bs := ws.map binOp
  let b (k : Nat) : Option Bool := bs.getD k none
  let a (k : Nat) : Option Nat := anaOp (ws.getD k 0o600000)
  let op := i.op.toNat
  let invB (x : Option Bool) : Option Bool := x.map not
  match st with
  | .ton et p => evTon n i (b 0) et p
  | .tof et => evTof n i (b 0) et
  | .pulse rm k p => evPulse n i (b 0) rm k p
  | .flash ph fl f s1 s0 bad => evFlash n i per (b 0) (b 1) ph fl f s1 s0 bad
  | .latch x => evLatch n i (b 0) (b 1) x
  | .restart rel stuck armed void len => evRestart per moored (b 0) (b 1) rel stuck armed void len
  | .edge p => evEdge n i (b 0) p
  | .pair dc disc ps p1 =>
    if op = 0o040 then evPair n i (b 0) (b 1) dc disc
    else if op = 0o041 then evPair n i (b 0) (invB (b 1)) dc disc
    else if op = 0o042 then evEstop n i (b 0) (if ws.length = 1 then none else some (b 1)) dc disc p1
    else if op = 0o043 && i.par 1 = 1 then evProof n i (b 0) (invB (b 1)) dc disc ps
    else evProof n i (b 0) (b 1) dc disc ps
  | .window g x => evWindow n i (a 0) g x
  | .lamp h x g ok => evLamp i (b 0) (a 1) h x g ok
  | .heat h x g tc lk nt ok => evHeat n i (b 0) (a 1) h x g tc lk nt ok
  | .axpwr t tc since pwr r => evAxpwr i (a 0) (a 1) (b 2) (b 3) t tc since pwr r
  | .cross x c ph => evCross i per (b 0) (b 1) (b 2) (b 3) x c ph
  | .count c o x r => evCount i (b 0) (b 1) c o x r
  | .safeout _ => evSafeout n i tide (ws.getD 0 0o600000)
  | .none =>
    let one (v : Option Bool) : EvalOut := { outs := [detOut n i v], st := .none }
    if op = 0o010 then one (andVal bs)
    else if op = 0o011 then one (orVal bs)
    else if op = 0o012 then one (invB (b 0))
    else if op = 0o013 then one (majVal bs)
    else
      match selVal (b 0) (a 1) (a 2) with
      | some v => { outs := [vWord v], st := .none }
      | none => { outs := [subOut n i 0], st := .none }

/-- The value of the occurrence view 0o210000 (R124). -/
def viewOf (st : IState) : Word :=
  BitVec.ofNat 18 (match st with
  | .none => 0
  | .ton et _ => et
  | .tof et => et
  | .pulse rm _ _ => rm
  | .flash ph _ f _ _ _ => b2n f * 2 ^ 17 + ph
  | .latch x => b2n x
  | .restart rel stuck _ void len => b2n stuck * 2 ^ 17 + b2n rel * 2 ^ 16 + b2n void * 2 ^ 15 + len
  | .edge p => (match p with | none => 0 | some v => 2 + b2n v)
  | .pair dc disc _ _ => b2n disc * 2 ^ 17 + dc
  | .window g _ => g
  | .lamp _ b g _ => b * 512 + g
  | .heat _ _ _ _ lk nt _ => nt * 2 ^ 16 + min lk 65535
  | .axpwr t _ since _ _ => b2n t * 2 ^ 17 + since
  | .cross x _ ph => x * 2 ^ 15 + ph
  | .count c _ _ _ => c
  | .safeout t => b2n t)

/-- The view of an occurrence: GUARD and CURTAIN show PS and DISC in their own places (R124). -/
def instView (i : Inst) (st : IState) : Word :=
  match st with
  | .pair dc disc ps _ =>
    if i.op = 0o043 ∨ i.op = 0o044 then BitVec.ofNat 18 (ps * 2 ^ 16 + b2n disc * 2 ^ 15 + dc) else viewOf st
  | _ => viewOf st

/-- The EVA source an occurrence raises when its state goes from `old` to `new` (R134, R142, R143, R145, R183). -/
def alarmOf (old new : IState) : Option Nat :=
  match old, new with
  | .restart _ s0 _ _ _, .restart _ s1 _ _ _ => if s1 && !s0 then some 24 else none
  | .count _ o0 _ _, .count _ o1 _ _ => if o1 && !o0 then some 34 else none
  | .heat _ _ _ _ _ n0 _, .heat _ _ _ _ _ n1 _ => if n1 = 3 && n0 ≠ 3 then some 35 else none
  | .axpwr t0 _ _ _ _, .axpwr t1 _ _ _ _ => if t1 && !t0 then some 35 else none
  | _, _ => none

/-! ## Mirrored words (R244) -/

/-- The state words the mirror carries. -/
def mirrorEnc (st : IState) : List Word :=
  let w (x : Nat) : Word := BitVec.ofNat 18 x
  let pv (p : Prev) : Nat := match p with | none => 0 | some v => 2 + b2n v
  match st with
  | .latch x => [w (b2n x)]
  | .restart rel stuck armed void len =>
    [w (b2n stuck * 2 ^ 17 + b2n rel * 2 ^ 16 + b2n armed * 2 ^ 15 + b2n void * 2 ^ 14 + len)]
  | .edge p => [w (pv p)]
  | .ton et p => [w et, w (b2n p)]
  | .tof et => [w et]
  | .pulse rm k v => [w rm, w (b2n k * 2 + b2n v)]
  | .flash ph fl f s1 s0 bad =>
    [w (b2n f * 2 ^ 17 + b2n fl * 2 ^ 16 + ph), w (b2n s1 * 2 ^ 17 + b2n s0 * 2 ^ 16 + bad)]
  | .pair _ _ ps _ => [w ps]
  | .count c o x r => [w c, w (b2n o * 2 ^ 17 + pv x * 4 + pv r)]
  | _ => []

/-- The state with its mirrored words replaced by those of a record (R249). -/
def mirrorDec (st : IState) (ws : List Word) : IState :=
  let a : Word := ws.getD 0 0
  let b : Word := ws.getD 1 0
  let pv (w : Word) (k : Nat) : Prev := if w.getLsbD (k + 1) then some (w.getLsbD k) else none
  match st with
  | .latch _ => .latch (a.getLsbD 0)
  | .restart _ _ _ _ _ => .restart (a.getLsbD 16) (a.getLsbD 17) (a.getLsbD 15) (a.getLsbD 14) (fld a 12 0)
  | .edge _ => .edge (pv a 0)
  | .ton _ _ => .ton a.toNat (b.getLsbD 0)
  | .tof _ => .tof a.toNat
  | .pulse _ _ _ => .pulse a.toNat (b.getLsbD 1) (b.getLsbD 0)
  | .flash _ _ _ _ _ _ => .flash (fld a 10 0) (a.getLsbD 16) (a.getLsbD 17) (b.getLsbD 17) (b.getLsbD 16) (fld b 5 0)
  | .pair dc disc _ p => .pair dc disc (fld a 1 0) p
  | .count _ _ _ _ => .count a.toNat (b.getLsbD 17) (pv b 2) (pv b 0)
  | st => st

end Sys2Proof.Machine
end

