-- ==== Sys2Proof/Machine/Translate.lean ====
section
/-!
DEFINITION. Channel A's translated form (R150, R151), the instance areas and the node layout of both dies (R42, R149), the
cones and their table (R152).
-/

namespace Sys2Proof.Machine

/-! ## Batches (R151) -/

/-- Pieces of at most 32 elements; `fuel` bounds how many. -/
def pieces32 {α : Type} : Nat → List α → List (List α)
  | 0, _ => []
  | _, [] => []
  | fuel + 1, l => l.take 32 :: pieces32 fuel (l.drop 32)

/-- The batch of some occurrences: word k of their records side by side. -/
def batchOf (n : Net) (level op nin : Nat) (ks : List Nat) : Batch :=
  let recs := ks.map fun k => (n.inst k).words
  { level := level, op := op, nin := nin, idxs := ks,
    arrays := (List.range (recs.headD []).length).map fun w => recs.map fun r => r.getD w 0 }

/-- The opcode and the count of inputs that sort an occurrence into batches. -/
def Net.batchKey (n : Net) (k : Nat) : Nat × Nat := ((n.inst k).op.toNat, (n.inst k).ins.length)

/-- The translated form of a net: level by level, within a level by ascending opcode and count of inputs, within a batch by
ascending index (R151). -/
def batchesOf (n : Net) : List Batch :=
  (List.range n.levels.length).flatMap fun l =>
    let ks := (List.range n.insts.length).filter fun k => n.levelOf k = l
    let keys := sortBy (fun x y => decide (x.1 < y.1 ∨ x.1 = y.1 ∧ x.2 ≤ y.2)) (ks.map n.batchKey).dedup
    keys.flatMap fun key =>
      let own := ks.filter fun k => n.batchKey k = key
      (pieces32 own.length own).map (batchOf n l key.1 key.2)

/-- The records a batch encodes, with their indices. -/
def Batch.records (b : Batch) : List (Nat × Inst) :=
  b.idxs.zipIdx.map fun x => (x.1, instOfWords (b.arrays.map fun a => a.getD x.2 0))

/-- Every record rebuilt from the batches, in index order (R171). -/
def recordsOf (bs : List Batch) : List Inst :=
  let rs := bs.flatMap Batch.records
  (List.range rs.length).map fun k => ((rs.find? fun x => x.1 = k).map (·.2)).getD Inst.blank

/-- The net as Channel A evaluates it: its records are those of the batches. -/
def Net.translated (n : Net) (bs : List Batch) : Net := { n with insts := recordsOf bs }

/-- The table digest: SHA-256 of the records, hashed as section 4 (R149). -/
def tableDigest (is : List Inst) : Octets := sha256 (wordsOct (is.flatMap Inst.words))

/-! ## Instance areas (R42) -/

/-- Words of state of an opcode (R125). -/
def stateSize (op : Nat) : Nat := ((opRow op).map (·.state)).getD 0

/-- What a word of an instance area is: word `w` of the record of occurrence k, or word j of one of its state copies. -/
inductive AreaWord where
  | record (k w : Nat)
  | state (k : Nat) (old : Bool) (j : Nat)
  deriving DecidableEq, Repr

/-- Word o of the A-die's instance area: the record arrays of each batch, then its state arrays, the copy of tide t - 1
first (log 81). -/
def areaA : List Batch → Nat → Option AreaWord
  | [], _ => none
  | b :: t, o =>
    let n := b.idxs.length
    let recs := n * b.arrays.length
    let st := stateSize b.op
    let k (i : Nat) : Nat := b.idxs.getD (i % n) 0
    if o < recs then some (.record (k o) (o / n))
    else if o < recs + 2 * st * n then
      let j := (o - recs) / n
      some (.state (k (o - recs)) (decide (j < st)) (j % st))
    else areaA t (o - recs - 2 * st * n)

/-- Word o of the B-die's instance area, occurrence k being the next: each record is followed by its two state copies (R42,
R149). -/
def areaB : List Inst → Nat → Nat → Option AreaWord
  | [], _, _ => none
  | i :: t, k, o =>
    let r := i.words.length
    let st := i.stateWords
    if o < r then some (.record k o)
    else if o < r + 2 * st then some (.state k (decide (o - r < st)) ((o - r) % st))
    else areaB t (k + 1) (o - r - 2 * st)

/-- The occurrence a word of an instance area belongs to. -/
def AreaWord.inst : AreaWord → Nat
  | .record k _ => k
  | .state k _ _ => k

/-- The word w of the record of occurrence k in the batches. -/
def batchGet (bs : List Batch) (k w : Nat) : Word :=
  match bs.find? fun b => b.idxs.contains k with
  | some b => (b.arrays.getD w []).getD (b.idxs.idxOf k) 0
  | none => 0

/-- That word overwritten. -/
def batchSet (bs : List Batch) (k w : Nat) (v : Word) : List Batch :=
  bs.map fun b =>
    if b.idxs.contains k then { b with arrays := listMod b.arrays w fun a => listMod a (b.idxs.idxOf k) fun _ => v } else b

/-! ## State words (R125) -/

/-- A binary operand as remembered, as a number. -/
def prevCode : Prev → Nat
  | none => 0
  | some v => 2 + b2n v

/-- The operand a number stands for. -/
def prevOf (c : Nat) : Prev := if c % 4 < 2 then none else some (c % 2 == 1)

/-- A state as a list of numbers. -/
def IState.code : IState → List Nat
  | .none => []
  | .ton et p => [et, b2n p]
  | .tof et => [et]
  | .pulse rm k p => [rm, b2n k, b2n p]
  | .flash ph fl f s1 s0 bad => [ph, b2n fl, b2n f, b2n s1, b2n s0, bad]
  | .latch x => [b2n x]
  | .restart r s a v len => [b2n r, b2n s, b2n a, b2n v, len]
  | .edge p => [prevCode p]
  | .pair dc d ps p => [dc, b2n d, ps, b2n p]
  | .window g x => [g, b2n x]
  | .lamp h b g ok => [b, g, b2n ok] ++ h.map prevCode
  | .heat h b g tc lk nt ok => [b, g, tc, lk, nt, b2n ok] ++ h.map prevCode
  | .axpwr t tc since pwr r => [b2n t, tc, since, b2n pwr, prevCode r]
  | .cross st c ph => [st, c, ph]
  | .count c o x r => [c, b2n o, prevCode x, prevCode r]
  | .safeout t => [b2n t]

/-- The state of the same block that a list of numbers stands for. -/
def IState.ofCode (old : IState) (l : List Nat) : IState :=
  let n (i : Nat) : Nat := l.getD i 0 % 2 ^ 18
  let b (i : Nat) : Bool := l.getD i 0 % 2 == 1
  let h (i : Nat) : List Prev := (List.range 8).map fun j => prevOf (l.getD (i + j) 0)
  match old with
  | .none => .none
  | .ton _ _ => .ton (n 0) (b 1)
  | .tof _ => .tof (n 0)
  | .pulse _ _ _ => .pulse (n 0) (b 1) (b 2)
  | .flash _ _ _ _ _ _ => .flash (n 0) (b 1) (b 2) (b 3) (b 4) (n 5 % 64)
  | .latch _ => .latch (b 0)
  | .restart _ _ _ _ _ => .restart (b 0) (b 1) (b 2) (b 3) (n 4)
  | .edge _ => .edge (prevOf (n 0))
  | .pair _ _ _ _ => .pair (n 0) (b 1) (n 2 % 3) (b 3)
  | .window _ _ => .window (n 0) (b 1)
  | .lamp _ _ _ _ => .lamp (h 3) (n 0) (n 1) (b 2)
  | .heat _ _ _ _ _ _ _ => .heat (h 6) (n 0) (n 1) (n 2) (n 3) (n 4 % 4) (b 5)
  | .axpwr _ _ _ _ _ => .axpwr (b 0) (n 1) (n 2) (b 3) (prevOf (n 4))
  | .cross _ _ _ => .cross (n 0 % 6) (n 1) (n 2)
  | .count _ _ _ _ => .count (n 0) (b 1) (prevOf (n 2)) (prevOf (n 3))
  | .safeout _ => .safeout (b 0)

/-! ## Node layout (R42, R149) -/

/-- The node layout of a net: for each node two directory words, then the points of its input slots and of its output slots
in slot order (log 81). -/
def layoutWords (n : Net) : List Word :=
  (List.range n.nnode).flatMap fun k =>
    [Config.layoutDir k false, Config.layoutDir k true] ++ (n.slots k 1 ++ n.slots k 2).map fun p => BitVec.ofNat 18 p

/-! ## Cones (R152) -/

/-- The occurrences of the cone of a node. -/
def coneOf (n : Net) (node : Nat) : List Nat :=
  let ins := n.slots node 1
  (List.range n.insts.length).foldl (fun c k =>
    let hit := (n.inst k).ins.any fun p =>
      ins.contains p.toNat || match n.driver p.toNat with
        | some j => c.contains j && decide (n.levelOf j < n.levelOf k)
        | none => false
    if hit then c ++ [k] else c) []

/-- The batches a cone names: the length of its list of batch numbers and lane masks. -/
def coneSize (bs : List Batch) (cone : List Nat) : Nat := countIf bs fun b => b.idxs.any cone.contains

/-- Cones of so many batch entries fit into 131,072 words, an entry taking 3 to 6 words (log 82). -/
def conesFit (entries : Nat) : Bool := entries * 6 ≤ 131072 || entries * (3 + Config.coneExtra.toNat) ≤ 131072

/-- Drop cones from the front of a list of nodes and sizes until the rest fits. -/
def coneDrop : List (Nat × Nat) → List (Nat × Nat)
  | [] => []
  | x :: t => if conesFit ((x :: t).foldl (fun a y => a + y.2) 0) then x :: t else coneDrop t

/-- The nodes whose cones the table holds: the largest cone is dropped first, of equal ones that of the higher node. -/
def conesKept (n : Net) (bs : List Batch) : List Nat :=
  let all := (List.range n.nnode).map fun k => (k, coneSize bs (coneOf n k))
  (coneDrop (sortBy (fun x y => decide (y.2 < x.2 ∨ x.2 = y.2 ∧ y.1 ≤ x.1)) all)).map (·.1)

end Sys2Proof.Machine
end

