-- ==== Sys2Proof/Machine/Rows.lean ====
section
/-!
DEFINITION. The 24-bit rows of the memories (R19, R20, R90): which cells have flipped, what a read of a row gives, and how
rows are rewritten. Rows of the B-die are numbered in the order of the A-die's address map (log 84).
-/

namespace Sys2Proof.Machine

/-- Where the working bank and the declarations begin. -/
def workBase : Nat := 0o15000000
def declBase : Nat := 0o20000000
def instrBase : Nat := 0o40000000

/-- The row of word a of a die's memories. -/
def rowKey (d : Die) (a : Nat) : Nat :=
  match d with
  | .A => a
  | .B => 2 ^ 24 + a

/-- A die has a memory word of that number: data or table SRAM, declaration SRAM, and on the A-die instruction SRAM. -/
def rowExists (d : Die) (a : Nat) : Bool :=
  a < 0o24000000 || (d = .A && instrBase ≤ a && a < instrBase + 2 ^ 18)

/-- The flipped cells of a row. -/
def State.rowMask (s : State) (d : Die) (a : Nat) : BitVec 24 := cellGet 0 s.rows (rowKey d a)

/-- What a read of a row that was written as w gives: single-bit errors corrected, none for an uncorrectable word (R20). -/
def State.rowUse (s : State) (d : Die) (a : Nat) (w : Word) : Option Word :=
  let m := s.rowMask d a
  if m = 0 then some w else eccDecode (eccEncode w ^^^ m)

/-- A row with these flips is uncorrectable; the code is linear, so the word does not matter. -/
def maskBad (m : BitVec 24) : Bool := (eccDecode m).isNone

/-- Word a is uncorrectable. -/
def State.rowBad (s : State) (d : Die) (a : Nat) : Bool := s.rows ≠ [] && maskBad (s.rowMask d a)

/-- Word a is written: its row holds a codeword again. -/
def State.rowWrite (s : State) (d : Die) (a : Nat) : State :=
  if s.rows = [] then s else { s with rows := cellSet 0 s.rows (rowKey d a) 0 }

/-- Cells of a row flip. -/
def State.rowFlip (s : State) (d : Die) (a : Nat) (m : BitVec 24) : State :=
  if rowExists d a then { s with rows := cellSet 0 s.rows (rowKey d a) (s.rowMask d a ^^^ m) } else s

/-- Words lo to hi - 1 are all written. -/
def State.rowsWrite (s : State) (d : Die) (lo hi : Nat) : State :=
  { s with rows := cellErase s.rows (rowKey d lo) (rowKey d hi) }

/-- The rows of words lo to hi - 1 that have flipped cells: word and flips. -/
def State.rowsIn (s : State) (d : Die) (lo hi : Nat) : List (Nat × BitVec 24) :=
  (s.rows.filter fun r => rowKey d lo ≤ r.1 && r.1 < rowKey d hi).map fun r => (r.1 - rowKey d 0, r.2)

/-- Point words of a bank are written (`base` is 0 for the committed bank). -/
def State.pointsWrite (s : State) (d : Die) (base : Nat) (ps : List Nat) : State :=
  if s.rows = [] then s else ps.foldl (fun s p => s.rowWrite d (base + p)) s

/-- The banks of a die change places (R153): their rows go with them. -/
def State.rowsSwap (s : State) (d : Die) : State :=
  let c := s.rowsIn d 0 (2 ^ 18)
  let w := s.rowsIn d workBase (workBase + 2 ^ 18)
  let s1 := (s.rowsWrite d 0 (2 ^ 18)).rowsWrite d workBase (workBase + 2 ^ 18)
  let s2 := c.foldl (fun s r => s.rowFlip d (workBase + r.1) r.2) s1
  w.foldl (fun s r => s.rowFlip d (r.1 - workBase) r.2) s2

/-- Rows read and corrected (R20): those of words lo to hi - 1 with a correctable error are written back. -/
def State.rowsCorrect (s : State) (d : Die) (lo hi : Nat) : State :=
  (s.rowsIn d lo hi).foldl (fun s r => if maskBad r.2 then s else s.rowWrite d r.1) s

/-- The occurrences of a die whose record or state holds an uncorrectable word. -/
def State.badInsts (s : State) (d : Die) : List Nat :=
  ((s.rowsIn d 0o01000000 workBase).filter fun r => maskBad r.2).filterMap fun r =>
    (match d with
      | .A => areaA s.eva.batches (r.1 - 0o01000000)
      | .B => areaB ((s.b.net.map Net.insts).getD []) 0 (r.1 - 0o01000000)).map AreaWord.inst

end Sys2Proof.Machine
end

