-- ==== Sys2Proof/Machine/Eval.lean ====
section
/-!
DEFINITION. Evaluation of the net on both dies: operand reads under the moor overlay (R83, R97, R153), Channel B's
exhaustive walk (R22, R163), Channel A's incremental evaluation, sweep and run-ahead (R152 to R160), group signatures and
the whole-net digest (R164, R165), the commit (R61, R170) and arming (R121, R179).
-/

namespace Sys2Proof.Machine

/-! ## Banks and overlay -/

/-- A point's word in a bank of underlying words; an unlisted point reads 0o600000 (R79, R84). -/
def bankGet (bank : List (Nat × Word)) (p : Nat) : Word := cellGet 0o600000 bank p

/-- Write a word into a bank. -/
def bankSet (bank : List (Nat × Word)) (p : Nat) (w : Word) : List (Nat × Word) := cellSet 0o600000 bank p w

/-- Write several words. -/
def bankAll (bank : List (Nat × Word)) (ws : List (Nat × Word)) : List (Nat × Word) :=
  ws.foldl (fun b x => bankSet b x.1 x.2) bank

/-- A word as it is committed and compared: a provisional word counts as valid (R157, R164). -/
def unprov (w : Word) : Word := if qOf w = 1 then w &&& 0o577777 else w

/-- The overlaid word: Q = 11 and the safe value, PP unchanged (R83, R86). -/
def forced (d : Decl) (w : Word) : Word := BitVec.ofNat 18 (0o600000 + b2n (w.getLsbD 15) * 0o100000 + d.safe)

/-- Group g is moored in force by command or by the start-up mooring. -/
def State.cmdMoored (s : State) (g : Nat) : Bool := s.moor.comM || s.moor.startup || gHas s.moor.comG g

/-- Whether the overlay applies to a group's words of the committed bank: fixed at the fence under the die's own final set
(R168, R170), or moored by command since (R153, R314). Between a boundary and the fence both count (log 85). -/
def overlaid (s : State) (d : Die) (g : Nat) : Bool :=
  (s.die d).overlayAll || gHas (s.die d).overlay g || s.cmdMoored g

/-- The committed word of a point as every reader outside its group sees it (R83, R153); an uncorrectable word counts as
substituted (R19, R20). -/
def committedWord (s : State) (d : Die) (p : Nat) : Word :=
  let n := (s.die d).net.getD Net.empty
  let dc := n.decl p
  if dc.kind = 0 then 0o600000
  else
    let w := if s.rowBad d p then substWord dc else bankGet (s.die d).committed p
    if overlaid s d (groupOf p) then forced dc w else w

/-- The word an operand read gives (R97): an occurrence at level `lvl` in group `grp` reads point p in the tide whose
working bank is `work`. An uncorrectable word is not used (R20): the operand is invalid (R19). -/
def readOperand (s : State) (d : Die) (n : Net) (work : List (Nat × Word)) (lvl grp p : Nat) : Word :=
  let dc := n.decl p
  if dc.kind = 0 then 0o600000
  else
    let g := groupOf p
    let old := match n.driver p with
      | some k => decide (lvl ≤ n.levelOf k)
      | none => false
    let w := if s.rowBad d (if old then p else workBase + p) then substWord dc
      else bankGet (if old then (s.die d).committed else work) p
    if g = grp then w
    else if (if old then overlaid s d g else s.groupMoored g) then forced dc w
    else w

/-- The operand words occurrence k reads. -/
def operands (s : State) (d : Die) (n : Net) (work : List (Nat × Word)) (k : Nat) : List Word :=
  let i := n.inst k
  i.ins.map fun p => readOperand s d n work (n.levelOf k) i.group p.toNat

/-- Working bank and shadow states during an evaluation. -/
structure Work where
  bank : List (Nat × Word)
  shadow : List IState
  deriving DecidableEq, Repr

/-- Evaluate occurrence k on operand words: its outputs go to the working bank and its state to the shadow (R157). One whose
record or state has an uncorrectable word gives substituted outputs and keeps its state (R19, log 84). -/
def evalK (s : State) (d : Die) (n : Net) (w : Work) (k : Nat) (ws : List Word) : Work :=
  let i := n.inst k
  let st := (s.die d).inst.getD k .none
  let r := if (s.badInsts d).contains k then { outs := (List.range i.outs.length).map (subOut n i), st := st }
    else evalInst n s.per s.now (s.groupMoored i.group) i ws st
  { bank := bankAll w.bank ((i.outs.map (·.toNat)).zip r.outs), shadow := listMod w.shadow k fun _ => r.st }

/-! ## Inputs of the tide -/

/-- The words of the partition-sourced points (R37). -/
def partWords (s : State) (n : Net) : List (Nat × Word) :=
  (n.decls.filter fun x => n.partSourced x.1).map fun x =>
    match (s.eva.nwVal.find? fun y => y.1 = x.1) with
    | some y => (x.1, BitVec.ofNat 18 (if x.2.ana then y.2.toNat else y.2.toNat % 2))
    | none => (x.1, substWord x.2)

/-- The words of a node from a close list (R51, R54). -/
def closeWords (n : Net) (cl : List CloseEnt) (node : Nat) : List (Nat × Word) :=
  match cl.find? fun e => e.node = node with
  | some e => inputWords n node e.payload
  | none => substWords n node

/-- Everything that enters the net in a tide: nodes, local samples, partition-sourced points. -/
def tideInputs (s : State) (n : Net) (cl : List CloseEnt) : List (Nat × Word) :=
  ((List.range n.nnode).flatMap (closeWords n cl)) ++ s.lio.inWords ++ partWords s n

/-! ## Channel B (R22, R163) -/

/-- Channel B walks the whole net on its close list; it writes every word of its working bank that it reads, and corrects the
rows it reads (R20). -/
def evalB (s : State) : State :=
  if !s.b.armed then s
  else
    let s := ((s.rowsWrite .B workBase (workBase + 2 ^ 18)).rowsCorrect .B 0 (2 ^ 18)).rowsCorrect .B 0o01000000 workBase
    let n := s.netB
    let w0 : Work := { bank := bankAll s.b.working (tideInputs s n s.intake.closeB), shadow := s.b.inst }
    let w := (List.range n.insts.length).foldl (fun w k => evalK s .B n w k (operands s .B n w.bank k)) w0
    { s with b := { s.b with working := w.bank, shadow := w.shadow } }

/-! ## Channel A (R152 to R160) -/

/-- Opcodes that R154 evaluates only on a change. -/
def isLogic (i : Inst) : Bool := 0o010 ≤ i.op.toNat && i.op.toNat ≤ 0o014

/-- First group of the sweep of a tide (R155). -/
def sweepFirst (t : Tide) : Nat := 8 * (t.toNat % 64)

/-- Whether a group is in the sweep of a tide. -/
def inSweep (t : Tide) (g : Nat) : Bool := sweepFirst t ≤ g && g < sweepFirst t + 8

/-- The net as Channel A evaluates it: with the records of its batches (R151). -/
def State.netX (s : State) : Net := s.netA.translated s.eva.batches

/-- The occurrences in batch order (R151). -/
def State.batchOrder (s : State) : List Nat := s.eva.batches.flatMap (·.idxs)

/-- Words enter Channel A's working bank. -/
def enterWords (s : State) (ws : List (Nat × Word)) : State :=
  { s.pointsWrite .A workBase (ws.map (·.1)) with a := { s.a with working := bankAll s.a.working ws } }

/-- Put a point's provisional mark (R161). -/
def provSet (s : State) (p : Nat) (basis : BitVec 2) (wd : Bool) : State :=
  let old := ((s.eva.prov.find? fun x => x.1 = p).map fun x => x.2.2).getD false
  { s with eva := { s.eva with
    prov := (s.eva.prov.filter fun x => x.1 ≠ p) ++ [(p, basis, wd || old)] } }

/-- Marks for several points. -/
def provAll (s : State) (ps : List Nat) (basis : BitVec 2) (wd : Bool) : State :=
  ps.foldl (fun s p => provSet s p basis wd) s

/-- The provisional view of a point (R161, R162): BASIS, WD, the word and its tide. -/
def provView (s : State) (p : Nat) : Nat × Bool × Word × Tide :=
  let d := s.netA.decl p
  if d.kind = 0 then (0, false, 0o600000, s.tide.cnum)
  else
    let old : Word := committedWord s .A p
    match s.eva.prov.find? fun x => x.1 = p with
    | none => (0, false, old, s.tide.cnum)
    | some x =>
      if x.2.1 = 1 || x.2.1 = 2 then
        let w := bankGet s.a.working p
        (x.2.1.toNat, x.2.2, if qOf w = 0 then w ||| 0o200000 else w, s.now)
      else (x.2.1.toNat, x.2.2, old, s.tide.cnum)

/-- The value of 0o200001[p] (R161). -/
def provOctets (s : State) (p : Nat) : Octets :=
  let v := provView s p
  be 5 v.2.2.2.toNat ++ be 3 v.2.2.1.toNat ++ [BitVec.ofNat 8 (b2n v.2.1 * 4 + v.1)]

/-- Report every change of a provisional view to those who subscribe to it on change (R162, R289). -/
def provNotify (s : State) : State :=
  (allSubs s).foldl (fun s x =>
    if x.2.entry = 0o200001 ∧ x.2.period = 0xFFFF then
      let v := provOctets s x.2.index.toNat
      if v = x.2.lastVal then s else reportSub s x.1 x.2 (provView s x.2.index.toNat).2.2.2 v
    else s) s

/-- Channel A evaluates occurrence k if it is due (R154), checks the sweep (R155), and counts it as evaluated. Run-ahead
(basis 1) evaluates whatever is settled (R156). -/
def evalKA (s : State) (basis : BitVec 2) (k : Nat) : State :=
  let n := s.netX
  let i := n.inst k
  let ws := operands s .A n s.a.working k
  let same := s.a.lastOps.getD k none = some ws
  let swept := inSweep s.now i.group
  let done (s : State) : State := { s with a := { s.a with evaluated := s.a.evaluated ++ [k] } }
  if isLogic i && same && !swept && basis ≠ 1 then done s
  else
    let w := evalK s .A n { bank := s.a.working, shadow := s.a.shadow } k ws
    let outs := i.outs.map (·.toNat)
    let differs := isLogic i && same && swept && outs.any fun p => bankGet w.bank p ≠ bankGet s.a.working p
    let s1 : State := { s.pointsWrite .A workBase outs with
      a := { s.a with working := w.bank, shadow := w.shadow, lastOps := listMod s.a.lastOps k fun _ => some ws },
      eva := { s.eva with recompNow := if basis = 2 then sat18 s.eva.recompNow else s.eva.recompNow } }
    let s2 := provAll (done s1) outs basis false
    if differs then fire s2 27 (gBit i.group) (BitVec.ofNat 32 k) else s2

/-- Whether an operand of an occurrence at level `lvl` is settled during intake (R156). -/
def settledOperand (s : State) (n : Net) (lvl p : Nat) : Bool :=
  match n.driver p with
  | some j => decide (lvl ≤ n.levelOf j) || s.a.evaluated.contains j
  | none =>
    let d := n.decl p
    d.kind = 1 && !d.isLocal && s.intake.basis.any fun e => e.node = d.source

/-- The cone of a node as the cone table gives it, in batch order (R152). -/
def State.cone (s : State) (node : Nat) : List Nat := s.batchOrder.filter (coneOf s.netX node).contains

/-- Run-ahead: every occurrence of the cone whose operands are all settled, in level order (R156). -/
def runAhead (s : State) (node : Nat) : State :=
  let n := s.netX
  (s.cone node).foldl (fun s k =>
    if s.a.evaluated.contains k then s
    else if (n.inst k).ins.all fun p => settledOperand s n (n.levelOf k) p.toNat then evalKA s 1 k else s) s

/-- Run-ahead is in force: enabled, with a cone table that matches the net (R160, R178). -/
def runAheadOn (s : State) : Bool := s.a.armed && s.eva.raenNow && s.eva.cones && s.tide.ph = 0

/-- The first copy of a node that passes the A-check becomes its basis (R156), where the cone table has its cone (R152). -/
def takeBasis (s : State) (e : CloseEnt) : State :=
  if !runAheadOn s || !s.eva.coneNodes.contains e.node || s.intake.basis.any (fun x => x.node = e.node) then s
  else
    let ws := inputWords s.netA e.node e.payload
    let s1 : State := { enterWords s ws with
      intake := { s.intake with basis := s.intake.basis ++ [e] }, eva := { s.eva with ra := true } }
    provNotify (runAhead (provAll s1 (ws.map (·.1)) 1 false) e.node)

/-- cancel(n) of R158: the results of every occurrence of the cone are discarded, and all its output points withdrawn. -/
def cancelCone (s : State) (node : Nat) : State :=
  let n := s.netX
  provNotify <| (s.cone node).foldl (fun s k =>
    let outs := (n.inst k).outs.map (·.toNat)
    let s1 := if s.a.evaluated.contains k then
        { enterWords s (outs.map fun p => (p, bankGet s.a.committed p)) with
          a := { s.a with
            working := bankAll s.a.working (outs.map fun p => (p, bankGet s.a.committed p)),
            shadow := listMod s.a.shadow k fun _ => s.a.inst.getD k .none,
            lastOps := listMod s.a.lastOps k fun _ => none,
            evaluated := s.a.evaluated.filter (· ≠ k) } }
      else s
    provAll s1 outs 3 true) { s with eva := { s.eva with cancelNow := sat18 s.eva.cancelNow } }

/-- Reconcile one node against the close list (R158). -/
def reconcileNode (s : State) (cl : List CloseEnt) (node : Nat) : State :=
  let n := s.netA
  let enter (s : State) : State :=
    let ws := closeWords n cl node
    provAll (enterWords s ws) (ws.map (·.1)) 2 false
  match s.intake.basis.find? fun e => e.node = node with
  | none => enter s
  | some c =>
    match cl.find? fun e => e.node = node with
    | some e => if e.payload = c.payload then s else fire (enter (cancelCone s node)) 25 0 (BitVec.ofNat 32 node)
    | none => fire (enter (cancelCone s node)) 25 0 (BitVec.ofNat 32 node)

/-- The alarms of states that changed in the tide (R134, R142, R143, R145). -/
def alarms (s : State) : State :=
  s.batchOrder.foldl (fun s k =>
    match alarmOf (s.a.inst.getD k .none) (s.a.shadow.getD k .none) with
    | some src => fire s src 0 (BitVec.ofNat 32 k)
    | none => s) s

/-- Channel A on its close list (R158): reconcile, enter the other inputs, evaluate every occurrence that is due and holds
no result on a confirmed basis. -/
def evalA (s : State) : State :=
  if !s.a.armed then s
  else
    let s := (s.rowsCorrect .A 0 (2 ^ 18)).rowsCorrect .A 0o01000000 (workBase + 2 ^ 18)
    let n := s.netA
    let cl := s.intake.closeA
    let s1 := (List.range n.nnode).foldl (fun s k => reconcileNode s cl k) s
    let s2 := if 64 < s1.eva.cancelNow.toNat then fire1 s1 26 else s1
    let ws := s2.lio.inWords ++ partWords s2 n
    let s3 := provAll (enterWords s2 ws) (ws.map (·.1)) 2 false
    let s4 := s3.batchOrder.foldl (fun s k =>
      if s.a.evaluated.contains k then s else evalKA s 2 k) s3
    provNotify (alarms s4)

/-! ## Signatures (R164, R165) -/

/-- The group signature of g on a die. -/
def groupSig (n : Net) (bank : List (Nat × Word)) (st : List IState) (g : Nat) : BitVec 32 :=
  let pts := (n.decls.filter fun x => groupOf x.1 = g).flatMap fun x => be 3 (unprov (bankGet bank x.1)).toNat
  let ins := ((List.range n.insts.length).filter fun k => (n.inst k).group = g).flatMap fun k =>
    be 3 (instView (n.inst k) (st.getD k .none)).toNat
  crc32c (be 2 g ++ pts ++ ins)

/-- The input signature of g on a die. -/
def inputSig (n : Net) (bank : List (Nat × Word)) (g : Nat) : BitVec 32 :=
  let pts := (n.decls.filter fun x => groupOf x.1 = g && (x.2.kind = 1 || n.partSourced x.1)).flatMap fun x =>
    be 3 (unprov (bankGet bank x.1)).toNat
  crc32c (be 2 g ++ pts)

/-- The working bank as a read of it gives: an uncorrectable word counts as substituted (R19, R20). -/
def State.workRead (s : State) (d : Die) : List (Nat × Word) :=
  ((s.rowsIn d workBase (workBase + 2 ^ 18)).filter fun r => maskBad r.2).foldl (fun b r =>
    bankSet b (r.1 - workBase) (substWord (((s.die d).net.getD Net.empty).decl (r.1 - workBase)))) (s.die d).working

/-- All 512 group signatures of a die. -/
def groupSigs (s : State) (d : Die) : List (BitVec 32) :=
  let bank := s.workRead d
  (List.range 512).map fun g => groupSig ((s.die d).net.getD Net.empty) bank (s.die d).shadow g

/-- The whole-net digest: the tide number, the input signatures, the group signatures (log 16). -/
def wholeDigest (s : State) (d : Die) (sigs : List (BitVec 32)) : Octets :=
  let n := (s.die d).net.getD Net.empty
  let bank := s.workRead d
  let is := (List.range 512).map fun g => inputSig n bank g
  sha256 (be 5 s.now.toNat ++ (is ++ sigs).flatMap fun x => be 4 x.toNat)

/-! ## Commit and arming -/

/-- The banks change places under the overlay given, the new committed one with its valid words as such; shadows become the
state (R153, R170). -/
def commitDie (x : DieState) (gs : GSet) (all : Bool) : DieState :=
  { x with committed := x.working.map (fun c => (c.1, unprov c.2)), working := x.committed, inst := x.shadow,
           overlay := gs, overlayAll := all }

/-- The reset word of a declared point (R84). -/
def resetWords (n : Net) : List (Nat × Word) :=
  n.decls.map fun x => (x.1, BitVec.ofNat 18 (0o600000 + x.2.safe))

/-- Arm every occurrence of a die's net (R121, R179); occurrences that kept their state over a reload go on with it (R177). -/
def armDie (x : DieState) : DieState :=
  match x.net with
  | none => x
  | some n =>
    if x.kept then { x with armed := true, kept := false, overlayAll := true }
    else
      let bank := bankAll [] (resetWords n)
      { x with committed := bank, working := bank, inst := n.insts.map initState, shadow := n.insts.map initState,
               lastOps := n.insts.map fun _ => none, evaluated := [], armed := true, overlayAll := true }

/-- How an occurrence of the new net follows from the old one: the r-th occurrence of an untouched group goes on as the r-th
occurrence of that group before (R111). -/
def Net.before (old new : Net) (touch : GSet) (k : Nat) : Option Nat :=
  let g := (new.inst k).group
  if gHas touch g then none
  else
    let rank := countIf (List.range k) fun j => (new.inst j).group = g
    ((List.range old.insts.length).filter fun j => (old.inst j).group = g)[rank]?

/-- Bring a new net into a die that runs the old one (R111): points whose declaration stays keep their words, occurrences
of untouched groups keep their state, those of touched groups are in their initial state. -/
def rearmDie (x : DieState) (new : Net) (touch : GSet) : DieState :=
  match x.net with
  | none => { x with net := some new }
  | some old =>
    if !x.armed then { x with net := some new }
    else
      let keepWord (p : Nat) (d : Decl) : Word :=
        if old.decl p = d then bankGet x.committed p else BitVec.ofNat 18 (0o600000 + d.safe)
      let bank := bankAll [] (new.decls.map fun y => (y.1, keepWord y.1 y.2))
      let st (k : Nat) : IState :=
        match old.before new touch k with
        | some j => x.inst.getD j (initState (new.inst k))
        | none => initState (new.inst k)
      let ops (k : Nat) : Option (List Word) :=
        match old.before new touch k with
        | some j => x.lastOps.getD j none
        | none => none
      let ks := List.range new.insts.length
      { x with net := some new, committed := bank, working := bank, inst := ks.map st, shadow := ks.map st,
               lastOps := ks.map ops, evaluated := [] }

/-- A net leaves service while its tables are reloaded whole (R175, R177). -/
def DieState.outOfService (x : DieState) : DieState := if x.armed then { x with armed := false, kept := true } else x

/-- The start of a tide on a die: the working bank takes the committed words (R153), shadows start from the state. -/
def copyBank (x : DieState) : DieState :=
  { x with working := x.committed, shadow := x.inst, evaluated := [] }

/-- The words of a die's tables are written anew (R113). -/
def State.tablesWrite (s : State) (d : Die) : State :=
  (s.rowsWrite d 0 0o16000000).rowsWrite d declBase (declBase + 2 ^ 20)

/-! ## Uncorrectable words (R20, R183, R322) -/

/-- What a die reports of an uncorrectable word at address a: source, affected set, subject (log 84). -/
def rowSource (s : State) (d : Die) (a : Nat) : Nat × GSet × BitVec 32 :=
  let point (src p : Nat) : Nat × GSet × BitVec 32 := (src, gBit (groupOf p), BitVec.ofNat 32 p)
  let working := workBase ≤ a && a < workBase + 2 ^ 18
  match d with
  | .A => if working then point 22 (a - workBase) else if instrBase ≤ a then (21, 0, 0) else (20, 0, 0)
  | .B =>
    if a < 2 ^ 18 then point 37 a
    else if working then point 37 (a - workBase)
    else match (if a < workBase then areaB s.netB.insts 0 (a - 0o01000000) else none) with
      | some (.state k _ _) => (37, gBit (s.netB.inst k).group, BitVec.ofNat 32 k)
      | _ => (36, 0, 0)

/-- A die reports an uncorrectable word that it has read. -/
def rowReport (s : State) (d : Die) (a : Nat) : State :=
  let x := rowSource s d a
  fire s x.1 x.2.1 x.2.2

/-- The copy of R153 reads every word of the committed bank: single-bit errors are corrected, uncorrectable words are reported
and leave the word in the working bank unusable too. -/
def copyRows (s : State) : State :=
  if s.rows = [] || !s.a.armed then s
  else
    let s1 := (s.rowsCorrect .A 0 (2 ^ 18)).rowsWrite .A workBase (workBase + 2 ^ 18)
    (s1.rowsIn .A 0 (2 ^ 18)).foldl (fun s r => rowReport (s.rowFlip .A (workBase + r.1) r.2) .A r.1) s1

/-! ## Views -/

/-- A point of the committed views reads PP = 1 (R302). -/
def ppCount (s : State) : Nat :=
  match s.a.net with
  | none => 0
  | some n => countIf n.decls fun x => (bankGet s.a.committed x.1).getLsbD 15

/-- The provisional table at 0o15000000 (R31, R153): the working bank, with valid results of the tide as Q = 01. -/
def provTable (s : State) (p : Nat) : Word :=
  if (s.netA.decl p).kind = 0 then 0o600000
  else
    let w := bankGet s.a.working p
    let mark := s.eva.prov.any fun x => x.1 = p && (x.2.1 = 1 || x.2.1 = 2)
    if mark && qOf w = 0 then w ||| 0o200000 else w

end Sys2Proof.Machine
end

