-- ==== Sys2Proof/Machine/Timers.lean ====
section
/-!
DEFINITION. The timers TIM_00 to TIM_15 (R338 to R350): ticks and reloads, compares, captures, linked pairs, slaves, GO and
HALT, the debugger's halt; and the tick of an idle block (log 1).
-/

namespace Sys2Proof.Machine

/-! ## Fields and pairs -/

/-- RUN. -/
def Timer.run (t : Timer) : Bool := t.ctrl.getLsbD 17

/-- FRZ. -/
def Timer.frz (t : Timer) : Bool := t.ctrl.getLsbD 16

/-- LNK. -/
def Timer.lnk (t : Timer) : Bool := t.ctrl.getLsbD 15

/-- GOEN. -/
def Timer.goen (t : Timer) : Bool := t.ctrl.getLsbD 14

/-- With RUN set to r. -/
def Timer.setRun (t : Timer) (r : Bool) : Timer := { t with ctrl := setBit t.ctrl 17 r }

/-- STA as a word. -/
def Timer.sta (t : Timer) : Word :=
  BitVec.ofNat 18 (b2n t.out * 32 + b2n t.arm * 16 + b2n t.ovr * 8 + b2n t.capf * 4 + b2n t.cmpf * 2 + b2n t.wrap)

/-- Timer n. -/
def TimSt.get (x : TimSt) (n : Nat) : Timer := x.t.getD n {}

/-- Change timer n. -/
def State.modTim (s : State) (n : Nat) (f : Timer → Timer) : State :=
  { s with tim := { s.tim with t := listMod s.tim.t n f } }

/-- Timer n is the high word of a linked pair (R345). -/
def TimSt.isHigh (x : TimSt) (n : Nat) : Bool := n % 2 = 1 && (x.get n).lnk

/-- Timer n is the low word of a linked pair (R345). -/
def TimSt.isLow (x : TimSt) (n : Nat) : Bool := n % 2 = 0 && (x.get (n + 1)).lnk

/-- Timer n stands still: a debugger halts the core and FRZ is 1 (R349). -/
def TimSt.frozen (x : TimSt) (n : Nat) : Bool := x.halt && (x.get n).frz

/-! ## Flags, events, compare -/

/-- The enable bit and the flag of a timer event. -/
def Timer.enabled (t : Timer) : TimEv → Bool
  | .wrap => t.ctrl.getLsbD 11
  | .capture => t.ctrl.getLsbD 10
  | .compare => t.ctrl.getLsbD 9

/-- The flag of a timer event. -/
def Timer.flag (t : Timer) : TimEv → Bool
  | .wrap => t.wrap
  | .capture => t.capf
  | .compare => t.cmpf

/-- The timer with the flag of an event set. -/
def Timer.raise (t : Timer) : TimEv → Timer
  | .wrap => { t with wrap := true }
  | .capture => { t with capf := true }
  | .compare => { t with cmpf := true }

/-- A timer event: its flag is set, the pair's source fires when an enabled flag goes from 0 to 1 (R350), and the event
acts on slaves in the next cycle (R347). -/
def timEvent (s : State) (n : Nat) (e : TimEv) : State :=
  let t := s.tim.get n
  let s1 := s.modTim n fun t => t.raise e
  let s2 : State := { s1 with tim := { s1.tim with todo := s1.tim.todo ++ [(n, e)] } }
  if !t.flag e && t.enabled e then fire s2 (114 + n / 2) 0 (BitVec.ofNat 32 n) else s2

/-- The compare of timer n, or of the pair whose low word it is, holds (R342, R345). -/
def TimSt.holds (x : TimSt) (n : Nat) : Bool :=
  let t := x.get n
  if x.isLow n then
    let h := x.get (n + 1)
    let d : BitVec 36 := BitVec.ofNat 36 (u36 t.cnt h.cnt) - BitVec.ofNat 36 (u36 t.cmp h.cmp)
    decide (d.toNat < 2 ^ 35)
  else decide ((t.cnt - t.cmp).toNat < 2 ^ 17)

/-- Evaluate the compare of timer n (R342). -/
def compareEval (s : State) (n : Nat) : State :=
  if (s.tim.get n).arm && s.tim.holds n then
    timEvent (s.modTim n fun t => { t with out := true, arm := false }) n .compare
  else s

/-! ## Ticks -/

/-- The next tick of timer n reloads it (R341, R345). -/
def TimSt.atEnd (x : TimSt) (n : Nat) : Bool :=
  let t := x.get n
  if x.isLow n then
    let h := x.get (n + 1)
    decide (u36 0o777777 h.per ≤ u36 t.cnt h.cnt)
  else decide (t.per.toNat ≤ t.cnt.toNat)

/-- One count tick of timer n, or of the pair whose low word it is (R341, R345). -/
def timTick (s : State) (n : Nat) : State :=
  let x := s.tim
  let t := x.get n
  let wrapsLow := decide (t.cnt = 0o777777)
  let reload (t : Timer) : Timer := { t with cnt := 0, out := false, arm := true }
  if x.isLow n then
    if x.atEnd n then
      let s1 := (s.modTim n reload).modTim (n + 1) fun h => { h with cnt := 0 }
      let s2 := if wrapsLow then timEvent s1 n .wrap else s1
      compareEval (timEvent s2 (n + 1) .wrap) n
    else
      let s1 := s.modTim n fun t => { t with cnt := t.cnt + 1 }
      let s2 := if wrapsLow then timEvent (s1.modTim (n + 1) fun h => { h with cnt := h.cnt + 1 }) n .wrap else s1
      compareEval s2 n
  else if x.atEnd n then compareEval (timEvent (s.modTim n reload) n .wrap) n
  else compareEval (s.modTim n fun t => { t with cnt := t.cnt + 1 }) n

/-! ## Slaves (R347) -/

/-- The mode a timer acts in: 0 where R347 takes it as 0. -/
def TimSt.mode (x : TimSt) (n : Nat) : Nat :=
  let v := (x.get n).slv
  let m := fld v 17 15
  let mst := fld v 3 0
  let evt := fld v 13 12
  if 5 < m || mst = n || x.isHigh n || (x.isHigh mst && evt ≠ 1) then 0 else m

/-- The event a slave waits for; code 3 is taken as 0. -/
def Timer.event (t : Timer) : TimEv :=
  if fld t.slv 13 12 = 1 then .wrap else if fld t.slv 13 12 = 2 then .capture else .compare

/-- A timer makes its own tick now: RUN, not frozen, not a high word, no clock slave, and a gate slave's master has OUT at
1. -/
def TimSt.ticks (x : TimSt) (n : Nat) : Bool :=
  let t := x.get n
  t.run && !x.frozen n && !x.isHigh n && x.mode n ≠ 3
    && (x.mode n ≠ 1 || (x.get (fld t.slv 3 0)).out)

/-- The slave action of timer n. -/
def slaveAct (s : State) (n : Nat) : State :=
  let x := s.tim
  if x.frozen n then s
  else match x.mode n with
    | 2 =>
      let s1 := s.modTim n fun t => { t with cnt := 0, arm := true }
      if x.isLow n then s1.modTim (n + 1) fun h => { h with cnt := 0 } else s1
    | 3 => if (x.get n).run then timTick s n else s
    | 4 => s.modTim n fun t => t.setRun true
    | 5 => s.modTim n fun t => t.setRun false
    | _ => s

/-! ## Captures (R343, R344) -/

/-- A capture source that is a pulse (R344). -/
def pulseSource (c : Nat) : Bool := 1 ≤ c && c ≤ 4

/-- A capture source that is the OUT level of a timer (R344). -/
def outSource (c : Nat) : Bool := 8 ≤ c && c ≤ 23

/-- A capture source that is a local input, filtered (R344). -/
def inSource (c : Nat) : Bool := 24 ≤ c && c ≤ 55

/-- CSEL. -/
def Timer.csel (t : Timer) : Nat := fld t.capsel 13 8

/-- EDGE selects an edge of this direction; a pulse counts as a rising one (R343). -/
def Timer.selects (t : Timer) (rising : Bool) : Bool :=
  let e := fld t.capsel 17 16
  if rising then e = 1 || e = 3 else e = 2 || e = 3

/-- The captured count of timer n, in both words of a pair (R343, R345). -/
def capture (s : State) (n : Nat) : State :=
  let s1 := s.modTim n fun t => { t with cap := t.cnt, ecnt := 0, ovr := t.ovr || t.capf }
  let s2 := if s.tim.isLow n then s1.modTim (n + 1) fun h => { h with cap := h.cnt } else s1
  timEvent s2 n .capture

/-- An edge of its source reaches timer n behind the filter: counted where EDGE selects it, and every (EPS + 1)-th one
captures. The high word of a pair has no capture source, and a frozen timer loses the edge (R343, R345, R349). -/
def capEdge (s : State) (n : Nat) (rising : Bool) : State :=
  let t := s.tim.get n
  if s.tim.isHigh n || s.tim.frozen n || !t.selects rising then s
  else if t.eps.toNat ≤ t.ecnt.toNat then capture s n
  else s.modTim n fun t => { t with ecnt := t.ecnt + 1 }

/-- Capture source c makes an edge at every timer that CSEL connects to it. -/
def capSignal (s : State) (c : Nat) (rising : Bool) : State :=
  (List.range 16).foldl (fun s n => if (s.tim.get n).csel = c then capEdge s n rising else s) s

/-- The OUT levels of the timers. -/
def TimSt.outs (x : TimSt) : BitVec 16 := bitsOf 16 fun n => (x.get n).out

/-- The OUT levels that have changed make their edges. -/
def outEdges (s : State) : State :=
  let old := s.tim.seen
  let new := s.tim.outs
  (List.range 16).foldl (fun s n =>
      if old.getLsbD n = new.getLsbD n then s else capSignal s (8 + n) (new.getLsbD n))
    { s with tim := { s.tim with seen := new } }

/-! ## Cycles -/

/-- One cycle: changed OUT levels reach the captures, and the master events that wait act, each on every slave that waits
for it. -/
def slaveCycle (s : State) : State :=
  let evs := s.tim.todo
  let s1 := outEdges { s with tim := { s.tim with todo := [] } }
  (List.range 16).foldl (fun s n =>
    let t := s1.tim.get n
    if evs.any fun e => e.1 = fld t.slv 3 0 && decide (e.2 = t.event) then slaveAct s n else s) s1

/-- Nothing waits for the next cycle. -/
def TimSt.quiet (x : TimSt) : Bool := x.todo.isEmpty && x.seen = x.outs

/-- Up to k cycles, until nothing waits. -/
def slaveCycles : Nat → State → State
  | 0, s => s
  | k + 1, s => if s.tim.quiet then s else slaveCycles k (slaveCycle s)

/-- What follows a timer command in its next cycles: 32 of them, so that every chain of slaves and captures without a loop
ends. -/
def settleTimers (s : State) : State := slaveCycles 32 s

/-- The pulse of a tide event reaches the timers that capture it (R344): 1 tide start, 2 intake close, 3 commit fence, 4
emission start. -/
def capPulse (s : State) (c : Nat) : State := settleTimers (capSignal s c true)

/-- An empty queue: one intra-tide tick passes and waiting slave actions go on (log 1). -/
def idle (s : State) : State :=
  let s1 : State := if s.tide.running && s.tide.tick ≠ 4095 then { s with tide := { s.tide with tick := s.tide.tick + 1 } }
    else s
  settleTimers s1

/-! ## Commands of the timers -/

/-- TIMER_TICK: PSC + 1 cycles have passed. -/
def execTimerTick (n : Fin 16) (s : State) : Host.Outcome State Fault Refusal :=
  if s.tim.ticks n.val then .next (settleTimers (timTick s n.val)) else .next s

/-- TIMER_RELOAD: the tick of a count that has reached its period. -/
def execTimerReload (n : Fin 16) (s : State) : Host.Outcome State Fault Refusal :=
  if s.tim.ticks n.val && s.tim.atEnd n.val then .next (settleTimers (timTick s n.val)) else .next s

/-- TIMER_COMPARE_FIRE: an armed compare that holds is evaluated. -/
def execTimerCompareFire (n : Fin 16) (s : State) : Host.Outcome State Fault Refusal :=
  if s.tim.isHigh n.val then .next s else .next (settleTimers (compareEval s n.val))

/-- TIMER_CAPTURE_EDGE: an edge of the timer's input has passed its filter. Pulses and OUT levels make their edges
themselves. -/
def execTimerCaptureEdge (n : Fin 16) (rising : Bool) (s : State) : Host.Outcome State Fault Refusal :=
  if inSource (s.tim.get n.val).csel then .next (settleTimers (capEdge s n.val rising)) else .next s

/-- A write of CNT: staged in a high word, otherwise set with the staged high word; the compare is evaluated. -/
def cntWrite (s : State) (n : Nat) (v : Word) : State :=
  if s.tim.isHigh n then s.modTim n fun t => { t with stCnt := some v }
  else
    let s1 := s.modTim n fun t => { t with cnt := v }
    let s2 := if s.tim.isLow n then
        s1.modTim (n + 1) fun h => { h with cnt := h.stCnt.getD h.cnt, stCnt := none }
      else s1
    settleTimers (compareEval s2 n)

/-- A write of CMP: staged in a high word, otherwise set with the staged high word; the compare is armed and evaluated. -/
def cmpWrite (s : State) (n : Nat) (v : Word) : State :=
  if s.tim.isHigh n then s.modTim n fun t => { t with stCmp := some v }
  else
    let s1 := s.modTim n fun t => { t with cmp := v, arm := true }
    let s2 := if s.tim.isLow n then
        s1.modTim (n + 1) fun h => { h with cmp := h.stCmp.getD h.cmp, stCmp := none }
      else s1
    settleTimers (compareEval s2 n)

/-- TIMER_CNT_WRITE. -/
def execTimerCntWrite (n : Fin 16) (v : Word) (s : State) : Host.Outcome State Fault Refusal :=
  .next (cntWrite s n.val v)

/-- TIMER_CMP_WRITE. -/
def execTimerCmpWrite (n : Fin 16) (v : Word) (s : State) : Host.Outcome State Fault Refusal :=
  .next (cmpWrite s n.val v)

/-- A write of CAPSEL or CAPDIV (R340, R343). -/
def capWrite (s : State) (n : Nat) (div : Bool) (v : Word) : State :=
  if div then s.modTim n fun t => { t with eps := v.setWidth 8, ecnt := 0 }
  else s.modTim n fun t => { t with capsel := v &&& 0o637477, ecnt := 0 }

/-- TIMER_CAPSEL_WRITE. -/
def execTimerCapselWrite (n : Fin 16) (div : Bool) (v : Word) (s : State) : Host.Outcome State Fault Refusal :=
  .next (capWrite s n.val div v)

/-- The count or the captured count of timer n as a ring reads it: the high word of a pair through its snapshot (R346). -/
def timCount (x : TimSt) (n : Nat) (cap : Bool) (ring : Ring) : Word :=
  let t := x.get n
  if x.isHigh n then match ring, cap with
    | .exec, false => t.snapCntE
    | .part, false => t.snapCntP
    | .exec, true => t.snapCapE
    | .part, true => t.snapCapP
  else if cap then t.cap else t.cnt

/-- What a read of CNT or CAP of timer n latches: the high word of a pair whose low word n is (R346). -/
def latchHigh (s : State) (n : Nat) (cap : Bool) (ring : Ring) : State :=
  if s.tim.isLow n then s.modTim (n + 1) fun h => match ring, cap with
    | .exec, false => { h with snapCntE := h.cnt }
    | .part, false => { h with snapCntP := h.cnt }
    | .exec, true => { h with snapCapE := h.cap }
    | .part, true => { h with snapCapP := h.cap }
  else s

/-- Data and error flag of a bus access (R31). -/
def State.busReturns (s : State) (v : Word) : State := { s with core := { s.core with busData := v, busErr := false } }

/-- RUN := r in every timer that a GO or HALT names (R348). -/
def setRuns (s : State) (bits : BitVec 16) (r : Bool) : State :=
  let f (n : Nat) : Timer :=
    let t := s.tim.get n
    if bits.getLsbD n && t.goen && !s.tim.isHigh n then t.setRun r else t
  { s with tim := { s.tim with t := (List.range 16).map f } }

/-- The named timers that a write during a halt does not reach before the core resumes (R349). -/
def TimSt.heldBits (x : TimSt) (v : Word) : BitVec 16 :=
  BitVec.ofNat 16 ((List.range 16).foldl (fun a n => a + b2n (v.getLsbD n && x.frozen n) * 2 ^ n) 0)

/-- A write of TIM.GO. -/
def goWrite (s : State) (v : Word) : State :=
  let held := s.tim.heldBits v
  let s1 := setRuns s (v.setWidth 16 &&& ~~~ held) true
  { s1 with tim := { s1.tim with heldGo := s1.tim.heldGo ||| held, heldHalt := s1.tim.heldHalt &&& ~~~ held } }

/-- A write of TIM.HALT. -/
def haltWrite (s : State) (v : Word) : State :=
  let held := s.tim.heldBits v
  let s1 := setRuns s (v.setWidth 16 &&& ~~~ held) false
  { s1 with tim := { s1.tim with heldHalt := s1.tim.heldHalt ||| held, heldGo := s1.tim.heldGo &&& ~~~ held } }

/-- TIM_GO. -/
def execTimGo (v : Word) (s : State) : Host.Outcome State Fault Refusal := .next (goWrite s v)

/-- TIM_HALT. -/
def execTimHalt (v : Word) (s : State) : Host.Outcome State Fault Refusal := .next (haltWrite s v)

/-- The core runs again: held writes take effect (R349). -/
def debugResume (s : State) : State :=
  let g := s.tim.heldGo
  let h := s.tim.heldHalt
  setRuns (setRuns { s with tim := { s.tim with halt := false, heldGo := 0, heldHalt := 0 } } g true) h false

/-- TIM_SOURCE_CLEAR: at a tide boundary at least 512 tides after the tide in which it fired, the executive clears the source
of timer pair k, or of check engine k - 8 (R350, R357). -/
def execTimSourceClear (k : Fin 12) (s : State) : Host.Outcome State Fault Refusal :=
  let b := if k.val < 8 then 12 else 13
  let j := if k.val < 8 then k.val else k.val - 8
  let e := s.evOf b
  let due := (e.since.getD j none).any fun t => reached s.now (tideAdd t 512)
  if s.runs .A && s.tide.ph = 0 && s.tide.tick = 0 && e.src.getLsbD j && due then
    .next (evUnset s b (BitVec.ofNat 16 (2 ^ j)) 1)
  else .next s

/-- Writes of the other timer registers, by offset from the timer's base (R340). -/
def timRegWrite (s : State) (n off : Nat) (v : Word) : State :=
  match off with
  | 0 => s.modTim n fun t => { t with ctrl := if n % 2 = 1 then v &&& 0o747777 else v &&& 0o647777 }
  | 1 => s.modTim n fun t => { t with
      ovr := t.ovr && !v.getLsbD 3, capf := t.capf && !v.getLsbD 2, cmpf := t.cmpf && !v.getLsbD 1,
      wrap := t.wrap && !v.getLsbD 0 }
  | 2 => cntWrite s n v
  | 3 => s.modTim n fun t => { t with per := v }
  | 4 => cmpWrite s n v
  | 6 => capWrite s n false v
  | 7 => capWrite s n true v
  | 8 => s.modTim n fun t => { t with slv := v &&& 0o730017 }
  | _ => s

/-- Reads of the timer registers, by offset from the timer's base (R340, R346). -/
def timRegRead (s : State) (n off : Nat) (ring : Ring) : State × Word :=
  let t := s.tim.get n
  match off with
  | 0 => (s, t.ctrl)
  | 1 => (s, t.sta)
  | 2 => (latchHigh s n false ring, timCount s.tim n false ring)
  | 3 => (s, t.per)
  | 4 => (s, t.cmp)
  | 5 => (latchHigh s n true ring, timCount s.tim n true ring)
  | 6 => (s, t.capsel)
  | 7 => (s, BitVec.ofNat 18 (t.ecnt.toNat * 256 + t.eps.toNat))
  | 8 => (s, t.slv)
  | _ => (s, 0)

/-- TIM.RUN. -/
def timRun (s : State) : Word :=
  BitVec.ofNat 18 ((List.range 16).foldl (fun a n => a + b2n (s.tim.get n).run * 2 ^ n) 0)

end Sys2Proof.Machine
end

