-- ==== Sys2Proof/Machine/Memory.lean ====
section
/-!
DEFINITION. The A-die's memories as the core addresses them (R31) and the protection regions of the partition (R33 to R35,
R316, R339).
-/

namespace Sys2Proof.Machine

/-- An address lies between two others, both included. -/
def within (lo hi a : Nat) : Bool := lo ≤ a && a ≤ hi

/-- An address of a memory range of R31. -/
def isRam (a : Nat) : Bool := a ≤ 0o23777777 || within 0o40000000 0o40777777 a

/-- The instance area (R31). -/
def areaBase : Nat := 0o01000000

/-- What a word of the A-die's instance area is; none beyond the translated form. -/
def areaWord (s : State) (a : Nat) : Option AreaWord :=
  if within areaBase (workBase - 1) a then areaA s.eva.batches (a - areaBase) else none

/-- The state copy that a word of the instance area shows: of tide t - 1, or of tide t. -/
def stateCopy (s : State) (k : Nat) (old : Bool) : IState := (if old then s.a.inst else s.a.shadow).getD k .none

/-- The word written to a memory address; none outside the memories of R31. The point table shows committed values with the
overlay (R83, R153), the provisional table those of R162, the instance area the translated form with the state (R42, R151),
the declaration SRAM section 2 of the active Manifest with the node layout after it (R150). -/
def memGet (s : State) (a : Nat) : Option Word :=
  if a ≤ 0o00777777 then some (committedWord s .A a)
  else if within workBase 0o15777777 a then some (provTable s (a - workBase))
  else if within declBase 0o22777777 a then
    let d := s.netA.decl ((a - declBase) / 3)
    some (match (a - declBase) % 3 with
      | 0 => d.w0
      | 1 => d.w1
      | _ => d.w2)
  else if isRam a then
    some (match areaWord s a with
      | some (.record k w) => batchGet s.eva.batches k w
      | some (.state k old j) => Config.stateWord true (stateCopy s k old).code j
      | none => cellGet 0 s.mem a)
  else none

/-- Channel A's state copy of an occurrence after a store into its word j (R125). -/
def stateStore (s : State) (k : Nat) (old : Bool) (j : Nat) (v : Word) : State :=
  let x := stateCopy s k old
  let y := x.ofCode (Config.stateStored x.code j v)
  { s with a := if old then { s.a with inst := listMod s.a.inst k fun _ => y }
    else { s.a with shadow := listMod s.a.shadow k fun _ => y } }

/-- A word of section 2 in the A-die's declaration SRAM is overwritten. -/
def declStore (s : State) (o : Nat) (v : Word) : State :=
  match s.a.net with
  | none => s
  | some n =>
    let d := n.decl (o / 3)
    let d' : Decl := match o % 3 with
      | 0 => { d with w0 := v }
      | 1 => { d with w1 := v }
      | _ => { d with w2 := v }
    { s with a := { s.a with net := some { n with decls := cellSet Decl.undeclared n.decls (o / 3) d' } } }

/-- The executive writes a word of memory (R31): the point tables are the banks of Channel A. EVA blocks the transfer of a word
with Q = 01 into the committed bank and raises source 28 (R157). -/
def memSet (s : State) (a : Nat) (v : Word) : State :=
  if a ≤ 0o00777777 then
    if qOf v = 1 then fire s 28 0 (BitVec.ofNat 32 a)
    else { s.rowWrite .A a with a := { s.a with committed := bankSet s.a.committed a v } }
  else
    let s := s.rowWrite .A a
    if within workBase 0o15777777 a then { s with a := { s.a with working := bankSet s.a.working (a - workBase) v } }
    else if within declBase 0o22777777 a then declStore s (a - declBase) v
    else match areaWord s a with
      | some (.record k w) => { s with eva := { s.eva with batches := batchSet s.eva.batches k w v } }
      | some (.state k old j) => stateStore s k old j v
      | none => if isRam a then { s with mem := cellSet 0 s.mem a v } else s

/-- A read of a memory word (R20): none for a bus error or for an uncorrectable word, which is reported. A corrected word is
written back. -/
def memRead (s : State) (a : Nat) : State × Option Word :=
  match memGet s a with
  | none => (s, none)
  | some w =>
    if s.rowMask .A a = 0 then (s, some w)
    else match s.rowUse .A a w with
      | some v => ((if v = w then s.rowWrite .A a else memSet s a v), some v)
      | none => (rowReport s .A a, none)

/-- The octets of n octet pairs held in consecutive words from an address, bits 15:8 first (R295); none where a word is
uncorrectable. -/
def memOctets (s : State) (a n : Nat) : Option Octets :=
  let ws := (List.range ((n + 1) / 2)).map fun i => s.rowUse .A (a + i) (cellGet 0 s.mem (a + i))
  if ws.all Option.isSome then some ((ws.flatMap fun w => be 2 ((w.getD 0).toNat % 65536)).take n) else none

/-! ## Protection (R33 to R35) -/

/-- The region in force that decides an access: the lowest enabled one that contains the address. -/
def regionOf (s : State) (a : Nat) : Option Nat :=
  (List.range 8).find? fun k =>
    (s.core.frgt.getD k 0).getLsbD 3 && (s.core.fbase.getD k 0).toNat ≤ a / 64 && a / 64 ≤ (s.core.flim.getD k 0).toNat

/-- What the address map lets the partition be granted (R31, R34, R316, R339). -/
def grantable (k : Access) (a : Nat) : Bool :=
  match k with
  | .read =>
    a ≤ 0o00777777 || within 0o17000000 0o17777777 a || within 0o40400000 0o40777777 a
      || within 0o77027000 0o77027777 a
      || (within 0o77130000 0o77147777 a || within 0o77200000 0o77207777 a) && a % 4096 < 0o6000
      || (within 0o77130000 0o77147777 a || within 0o77200000 0o77207777 a) && 0o6010 < a % 4096
  | .write =>
    within 0o17000000 0o17777777 a || within 0o77027000 0o77027777 a
      || (within 0o77130000 0o77147777 a || within 0o77200000 0o77207777 a) && a % 4096 < 0o6000
      || (within 0o77130000 0o77147777 a || within 0o77200000 0o77207777 a) && 0o6010 < a % 4096
  | .fetch => within 0o40400000 0o40777777 a

/-- The right of PRGT_k an access needs. -/
def rightBit : Access → Nat
  | .read => 0
  | .write => 1
  | .fetch => 2

/-- A partition access is allowed (R33, R34). -/
def allowed (s : State) (k : Access) (a : Nat) : Bool :=
  match regionOf s a with
  | some r => (s.core.frgt.getD r 0).getLsbD (rightBit k) && grantable k a
  | none => false

/-- An access of a ring is allowed. -/
def ringMay (s : State) (r : Ring) (k : Access) (a : Nat) : Bool :=
  match r with
  | .exec => true
  | .part => allowed s k a

end Sys2Proof.Machine
end

