-- ==== Sys2Proof/Machine/Checks.lean ====
section
/-!
DEFINITION. The check engines CHK_0 to CHK_3 (R351 to R357).
-/

namespace Sys2Proof.Machine

/-- Engine k. -/
def State.eng (s : State) (k : Nat) : Chk := s.chk.getD k {}

/-- Change engine k. -/
def State.modChk (s : State) (k : Nat) (f : Chk → Chk) : State := { s with chk := listMod s.chk k f }

/-- The standard initial value of a polynomial (R352). -/
def stdInit (poly : BitVec 2) : BitVec 32 := if poly = 3 then 0xFFFF else 0xFFFFFFFF

/-- The initial value that INITSEL selects; code 3 uses INIT_L alone (R352, R354). -/
def Chk.initial (c : Chk) : BitVec 32 :=
  let p : BitVec 2 := c.ctrl.setWidth 2
  if c.ctrl.getLsbD 2 then (if p = 3 then c.ini &&& 0xFFFF else c.ini) else stdInit p

/-- START (R354). -/
def Chk.start (c : Chk) : Chk :=
  { c with poly := c.ctrl.setWidth 2, reg := c.initial, fed := 0, result := 0 }

/-- One bit into the engine (R352). -/
def chkBit (poly : BitVec 2) (reg : BitVec 32) (b : Bool) : BitVec 32 :=
  match poly.toNat with
  | 0 => crcBitR 0xEDB88320 reg b
  | 1 => crcBitR 0x82F63B78 reg b
  | 2 => crcBitN 0x741B8CD7 reg b
  | _ => crcBit16 0x1021 reg b

/-- The bits of a unit in the order they enter (R353). -/
def chkOrder (poly : BitVec 2) (n v : Nat) : List Bool :=
  if poly = 0 ∨ poly = 1 then bitsL n v else bitsM n v

/-- Feed units of n bits each. -/
def Chk.feed (c : Chk) (n : Nat) (units : List Nat) : Chk :=
  { c with
    reg := units.foldl (fun r v => (chkOrder c.poly n v).foldl (chkBit c.poly) r) c.reg,
    fed := BitVec.ofNat 18 (min 262143 (c.fed.toNat + n * units.length)) }

/-- The current result, after the final XOR (R352, R354). -/
def Chk.res (c : Chk) : BitVec 32 := if c.poly = 3 then c.reg else c.reg ^^^ 0xFFFFFFFF

/-- Set RESULT and the flags it brings (R351, R355), and fire source 122 + k where R357 names the result. -/
def chkResult (s : State) (k : Nat) (r : BitVec 3) (mis cvc : Bool) : State :=
  let s1 := s.modChk k fun c => { c with result := r, mis := c.mis || mis, cvc := c.cvc || cvc }
  if r = 1 then s1 else fire s1 (122 + k) 0 (BitVec.ofNat 32 k)

/-- CHK_START. -/
def execChkStart (k : Fin 4) (s : State) : Host.Outcome State Fault Refusal :=
  .next (s.modChk k.val Chk.start)

/-- CHECK (R354). -/
def chkCheck (s : State) (k : Nat) : State :=
  let c := s.eng k
  if c.res = c.exp then chkResult s k 1 false false else chkResult s k 2 true false

/-- CHK_CHECK. -/
def execChkCheck (k : Fin 4) (s : State) : Host.Outcome State Fault Refusal := .next (chkCheck s k.val)

/-- A memory word as CHECK2 reads it: none where it does not exist or is uncorrectable, which source 122 + k reports (R357). -/
def chkWord (s : State) (a : Nat) : Option Word := (memGet s a).bind (s.rowUse .A a)

/-- A copy of the check value (R355, R356): its 32 bits when it is usable, and whether its address was refused. -/
def chkCopy (s : State) (ring : Ring) (addr : BitVec 24) : Option (BitVec 32) × Bool :=
  let a := addr.toNat
  let a1 := (addr + 1).toNat
  if !(ringMay s ring .read a && ringMay s ring .read a1) then (none, true)
  else
    match chkWord s a, chkWord s a1 with
    | some h, some l =>
      if h.toNat ≥ 65536 || l.toNat ≥ 65536 then (none, false)
      else (some (BitVec.ofNat 32 (h.toNat * 65536 + l.toNat)), false)
    | _, _ => (none, false)

/-- The outcome of CHECK2 (the table of R355): RESULT, MIS, CVC. -/
def chk2Outcome (a b : Option (BitVec 32)) (r : BitVec 32) : BitVec 3 × Bool × Bool :=
  match a, b with
  | some x, some y =>
    if x = y then (if r = x then (1, false, false) else (2, true, false))
    else if r = x ∨ r = y then (3, false, true) else (4, true, true)
  | some x, none => if r = x then (3, false, true) else (4, true, true)
  | none, some y => if r = y then (3, false, true) else (4, true, true)
  | none, none => (5, false, true)

/-- CHECK2 (R355, R356). -/
def chkCheck2 (s : State) (k : Nat) (ring : Ring) : State :=
  let c := s.eng k
  let a := chkCopy s ring c.cva
  let b := chkCopy s ring c.cvb
  let o := chk2Outcome a.1 b.1 c.res
  chkResult (s.modChk k fun c => { c with adr := c.adr || a.2 || b.2 }) k o.1 o.2.1 o.2.2

/-- CHK_CHECK2: `flipsA` and `flipsB` are the cells of the first word of each copy that have flipped when CHECK2 reads it
(R19, R355). -/
def execChkCheck2 (k : Fin 4) (ring : Ring) (flipsA flipsB : BitVec 24) (s : State) : Host.Outcome State Fault Refusal :=
  let c := s.eng k.val
  .next (chkCheck2 ((s.rowFlip .A c.cva.toNat flipsA).rowFlip .A c.cvb.toNat flipsB) k.val ring)

/-- A write of FEED8. -/
def feed8 (v : Word) (c : Chk) : Chk := c.feed 8 [v.toNat % 256]

/-- A write of FEED16: the octet in bits 15:8, then the one in bits 7:0. -/
def feed16 (v : Word) (c : Chk) : Chk := c.feed 8 [v.toNat / 256 % 256, v.toNat % 256]

/-- A write of FEED9. -/
def feed9 (v : Word) (c : Chk) : Chk := c.feed 9 [v.toNat % 512]

/-- A write of FEED18. -/
def feed18 (v : Word) (c : Chk) : Chk := c.feed 18 [v.toNat]

/-- CHK_FEED8. -/
def execChkFeed8 (k : Fin 4) (v : Word) (s : State) : Host.Outcome State Fault Refusal :=
  .next (s.modChk k.val (feed8 v))

/-- CHK_FEED16. -/
def execChkFeed16 (k : Fin 4) (v : Word) (s : State) : Host.Outcome State Fault Refusal :=
  .next (s.modChk k.val (feed16 v))

/-- CHK_FEED9. -/
def execChkFeed9 (k : Fin 4) (v : Word) (s : State) : Host.Outcome State Fault Refusal :=
  .next (s.modChk k.val (feed9 v))

/-- CHK_FEED18. -/
def execChkFeed18 (k : Fin 4) (v : Word) (s : State) : Host.Outcome State Fault Refusal :=
  .next (s.modChk k.val (feed18 v))

/-- A read of RES_L latches RES_H. -/
def resLRead (s : State) (k : Nat) : State × Word :=
  let r := (s.eng k).res
  (s.modChk k fun c => { c with snapH := (r >>> 16).setWidth 16 }, BitVec.ofNat 18 (r.toNat % 65536))

/-- CHK_RES_L_READ. -/
def execChkResLRead (k : Fin 4) (s : State) : Host.Outcome State Fault Refusal :=
  let x := resLRead s k.val
  .next (x.1.busReturns x.2)

/-! ## The register map of an engine (R351) -/

/-- Bits 15:0 of a 32-bit value replaced. -/
def setLow16 (x : BitVec 32) (v : Word) : BitVec 32 := BitVec.ofNat 32 (x.toNat / 65536 * 65536 + v.toNat % 65536)

/-- Bits 31:16 of a 32-bit value replaced. -/
def setHigh16 (x : BitVec 32) (v : Word) : BitVec 32 := BitVec.ofNat 32 (v.toNat % 65536 * 65536 + x.toNat % 65536)

/-- Bits 17:0 of a 24-bit address replaced. -/
def setAddrL (x : BitVec 24) (v : Word) : BitVec 24 := BitVec.ofNat 24 (x.toNat / 262144 * 262144 + v.toNat)

/-- Bits 23:18 of a 24-bit address replaced. -/
def setAddrH (x : BitVec 24) (v : Word) : BitVec 24 := BitVec.ofNat 24 (v.toNat % 64 * 262144 + x.toNat % 262144)

/-- A write at an offset of engine k. -/
def chkRegWrite (s : State) (ring : Ring) (k off : Nat) (v : Word) : State :=
  match off with
  | 0o00 => s.modChk k fun c => { c with ctrl := v.setWidth 3 }
  | 0o01 =>
    match v.toNat % 4 with
    | 0 => s.modChk k Chk.start
    | 1 => chkCheck s k
    | 2 => chkCheck2 s k ring
    | _ => s
  | 0o02 => s.modChk k fun c => { c with
      adr := c.adr && !v.getLsbD 2, cvc := c.cvc && !v.getLsbD 1, mis := c.mis && !v.getLsbD 0 }
  | 0o03 => s.modChk k (feed8 v)
  | 0o04 => s.modChk k (feed16 v)
  | 0o05 => s.modChk k (feed9 v)
  | 0o06 => s.modChk k (feed18 v)
  | 0o11 => s.modChk k fun c => { c with exp := setLow16 c.exp v }
  | 0o12 => s.modChk k fun c => { c with exp := setHigh16 c.exp v }
  | 0o13 => s.modChk k fun c => { c with ini := setLow16 c.ini v }
  | 0o14 => s.modChk k fun c => { c with ini := setHigh16 c.ini v }
  | 0o15 => s.modChk k fun c => { c with cva := setAddrL c.cva v }
  | 0o16 => s.modChk k fun c => { c with cva := setAddrH c.cva v }
  | 0o17 => s.modChk k fun c => { c with cvb := setAddrL c.cvb v }
  | 0o20 => s.modChk k fun c => { c with cvb := setAddrH c.cvb v }
  | _ => s

/-- STA of an engine. -/
def Chk.sta (c : Chk) : Word :=
  BitVec.ofNat 18 (c.result.toNat * 32768 + b2n c.adr * 4 + b2n c.cvc * 2 + b2n c.mis)

/-- A read at an offset of engine k. -/
def chkRegRead (s : State) (k off : Nat) : State × Word :=
  let c := s.eng k
  let low (x : BitVec 32) : Word := BitVec.ofNat 18 (x.toNat % 65536)
  let high (x : BitVec 32) : Word := BitVec.ofNat 18 (x.toNat / 65536)
  let addrL (x : BitVec 24) : Word := BitVec.ofNat 18 (x.toNat % 262144)
  let addrH (x : BitVec 24) : Word := BitVec.ofNat 18 (x.toNat / 262144)
  match off with
  | 0o00 => (s, c.ctrl.setWidth 18)
  | 0o02 => (s, c.sta)
  | 0o07 => resLRead s k
  | 0o10 => (s, c.snapH.setWidth 18)
  | 0o11 => (s, low c.exp)
  | 0o12 => (s, high c.exp)
  | 0o13 => (s, low c.ini)
  | 0o14 => (s, high c.ini)
  | 0o15 => (s, addrL c.cva)
  | 0o16 => (s, addrH c.cva)
  | 0o17 => (s, addrL c.cvb)
  | 0o20 => (s, addrH c.cvb)
  | 0o21 => (s, c.fed)
  | _ => (s, 0)

end Sys2Proof.Machine
end

