-- ==== Sys2Proof/Machine/Flags.lean ====
section
/-!
DEFINITION. The state codes and status words software reads: MODULE_STATE (R302), STAT and the interrupt line of a block
(R316, R317, R328).
-/

namespace Sys2Proof.Machine

/-- MODULE_STATE (R302); an unfed module has no code and reads 0. -/
def moduleState (s : State) : Nat :=
  match s.mode with
  | .off => 0
  | .halted => 0o013
  | .fuseRead => 0o001
  | .selfTest => 0o002
  | .load => 0o003
  | .translate => 0o004
  | .enrol => 0o005
  | .live =>
    if s.start.bench then 0o012
    else if s.mooredM then 0o011
    else if s.mooredG ≠ 0 then 0o010
    else if 0 < ppCount s then 0o006
    else 0o007

/-- The write condition "module moored" (R268). -/
def moduleMoored (s : State) : Bool := moduleState s = 0o011 || moduleState s = 0o012

/-- STAT.SETTLE of block b: settling holds for one of its sources (R328). -/
def settleBit (s : State) (b : Nat) : Bool :=
  s.settle.any fun x => (Config.dependents x.1).any fun src => Config.blockOf src = b

/-- STAT of the registers `e` of block b (R316). -/
def statWord (s : State) (b : Nat) (e : EvBlock) : Word :=
  BitVec.ofNat 18 (b2n e.parerr * 131072 + b2n (settleBit s b) * 65536 + e.src.toNat)

/-- The interrupt line of a block (R317). -/
def EvBlock.line (e : EvBlock) : Bool := e.parerr || (e.src &&& ~~~ e.mask) ≠ 0

/-- FIRST as a word (R316). -/
def EvBlock.firstWord (e : EvBlock) : Word :=
  BitVec.ofNat 18 (e.fSev.toNat * 65536 + b2n e.fConseq * 32768 + e.fSrc.toNat)

end Sys2Proof.Machine
end

