-- ==== Sys2Proof/Machine/Fuses.lean ====
section
/-!
DEFINITION. The fuses of both dies (R363 to R380): reading marginal bits, locks, seals and spares, the resolved critical
fields, burning commands, re-sense passes, overrides, and the debug port that DEBUG_DIS closes.
-/

namespace Sys2Proof.Machine

/-! ## One reading of an array -/

/-- The words of one die at both references with the marks of weak bits. -/
structure FuseView where
  lo : List (Nat × Word)
  hi : List (Nat × Word)
  weak : List (Nat × Word)
  deriving DecidableEq, Repr

/-- The words with a difference between the two references. -/
def fuseDiff (lo hi : List (Nat × Word)) : List (Nat × Word) :=
  (List.range 512).filterMap fun w =>
    let x := cellGet 0 lo w ^^^ cellGet 0 hi w
    if x = 0 then none else some (w, x)

/-- The array as it reads now, with the marks in force. -/
def FuseDie.present (f : FuseDie) : FuseView := { lo := f.lo, hi := f.hi, weak := f.weak }

/-- The array as power-up sensing read it (R369). -/
def FuseDie.latched (f : FuseDie) : FuseView := { lo := f.shLo, hi := f.shHi, weak := fuseDiff f.shLo f.shHi }

/-- The low-reference reading of word w. -/
def FuseView.low (v : FuseView) (w : Nat) : Word := cellGet 0 v.lo w

/-- The weak bits of word w. -/
def FuseView.weakOf (v : FuseView) (w : Nat) : Word := cellGet 0 v.weak w

/-- Word w with weak bits read as 1, as region 0 takes them (R371). -/
def FuseView.ones (v : FuseView) (w : Nat) : Word := v.low w ||| v.weakOf w

/-! ## Seals (R364, R371) -/

/-- The seal of 16 region words is valid for a logical region. -/
def sealFits (ws : List Word) (lreg : Nat) : Bool :=
  let n := ws.getD 14 0
  let c := ws.getD 15 0
  let cnt := fld n 3 0
  fld n 17 14 = 0b1011 && fld n 8 4 = lreg && 1 ≤ cnt && cnt ≤ 14 && fld c 17 16 = 0b10
    && c.toNat % 65536 = (crc16 (be 3 n.toNat ++ wordsOct (ws.take cnt))).toNat
    && ((ws.take 14).drop cnt).all (· = 0)

/-- The weak bits of a region: word in the region and bit. -/
def FuseView.weakBits (v : FuseView) (r : Nat) : List (Nat × Nat) :=
  (List.range 16).flatMap fun j =>
    ((List.range 18).filter fun b => (v.weakOf (16 * r + j)).getLsbD b).map fun b => (j, b)

/-- The words of a region with given values for its weak bits: bit i of m for the i-th of them. -/
def FuseView.trial (v : FuseView) (r m : Nat) : List Word :=
  let bits := v.weakBits r
  (List.range 16).map fun j =>
    (List.range bits.length).foldl (fun w i =>
      let x := bits.getD i (0, 0)
      if x.1 = j then setBit w x.2 (bitOf m i) else w) (v.low (16 * r + j))

/-- The words of a physical region whose seal is valid for a logical region; none where no combination of its weak bits,
or more than one, gives a valid seal, or where more than 4 bits are weak. -/
def FuseView.sealed (v : FuseView) (r lreg : Nat) : Option (List Word) :=
  let k := (v.weakBits r).length
  if 4 < k then none
  else match ((List.range (2 ^ k)).map (v.trial r)).filter (sealFits · lreg) with
    | [ws] => some ws
    | _ => none

/-! ## Locks and map (R365) -/

/-- A lock bit of region r, from the first word of each copy; it is set when it reads 1 in either. -/
def FuseView.lockBit (v : FuseView) (base1 base2 r : Nat) : Bool :=
  let bit (base : Nat) : Bool := if r < 16 then (v.ones base).getLsbD r else (v.ones (base + 1)).getLsbD (r - 16)
  1 ≤ r && (bit base1 || bit base2)

/-- Region r is write-locked. -/
def FuseView.wlock (v : FuseView) (r : Nat) : Bool := v.lockBit 0 4 r

/-- Region r is read-locked. -/
def FuseView.rlock (v : FuseView) (r : Nat) : Bool := v.lockBit 2 6 r

/-- Entry e of a copy of MAP. -/
def FuseView.mapByte (v : FuseView) (base e : Nat) : Nat :=
  let w := v.ones (base + e / 2)
  if e % 2 = 0 then fld w 15 8 else fld w 7 0

/-- The logical region entry e names when it is in use. -/
def FuseView.mapOf (v : FuseView) (e : Nat) : Option Nat :=
  let a := v.mapByte 8 e
  let b := v.mapByte 12 e
  if 128 ≤ a && 128 ≤ b && a % 32 = b % 32 then some (a % 32) else none

/-- Both copies of entry e are valid and name different regions (source 129). -/
def FuseView.mapClash (v : FuseView) (e : Nat) : Bool :=
  let a := v.mapByte 8 e
  let b := v.mapByte 12 e
  128 ≤ a && 128 ≤ b && a % 32 ≠ b % 32

/-- The logical region a physical region's seal must name: its own, or for a spare the one its map entry names. -/
def FuseView.lregOf (v : FuseView) (r : Nat) : Option Nat := if r < 24 then some r else v.mapOf (r - 24)

/-- The seal of a physical region is valid (R364). -/
def FuseView.sealOk (v : FuseView) (r : Nat) : Bool :=
  match v.lregOf r with
  | some l => 1 ≤ r && (v.sealed r l).isSome
  | none => false

/-- A region write-locked without a valid seal (R373). -/
def FuseView.lost (v : FuseView) (r : Nat) : Bool := 1 ≤ r && v.wlock r && !v.sealOk r

/-- The spare that serves logical region r when its own region is lost: the highest-numbered one in use for it whose
region is closed (R373). -/
def FuseView.spareOf (v : FuseView) (r : Nat) : Option Nat :=
  if v.lost r && r < 24 then
    ((List.range 8).filter fun e => v.mapOf e = some r && v.wlock (24 + e) && v.sealOk (24 + e)).getLast?
  else none

/-- The physical region that serves logical region r; none when r is absent (R373). -/
def FuseView.server (v : FuseView) (r : Nat) : Option Nat :=
  if v.lost r && r < 24 then (v.spareOf r).map (24 + ·) else some r

/-! ## Critical fields (R366, R367) -/

/-- Copy c votes: each of its four regions, or its spare, is closed. -/
def FuseView.copyVotes (v : FuseView) (c : Nat) : Bool :=
  (List.range 4).all fun k =>
    match v.server (1 + 4 * c + k) with
    | some p => v.wlock p && v.sealOk p
    | none => false

/-- The physical word of copy word q of copy c, 14 words to a region. -/
def FuseView.critWord (v : FuseView) (c q : Nat) : Option Nat :=
  let server := if q < 14 then v.server (1 + 4 * c) else if q < 28 then v.server (2 + 4 * c)
    else if q < 42 then v.server (3 + 4 * c) else v.server (4 + 4 * c)
  server.map fun p => 16 * p + q % 14

/-- The copies that vote. -/
def FuseView.voters (v : FuseView) : List Nat := (List.range 3).filter v.copyVotes

/-- The ballots of copies `cs` for copy word q: the bits each votes 1 for, and those it votes 0 for; a weak bit casts no
vote. -/
def FuseView.ballots (v : FuseView) (cs : List Nat) (q : Nat) : List (Word × Word) :=
  cs.filterMap fun c => (v.critWord c q).map fun w => (v.low w &&& ~~~v.weakOf w, ~~~(v.low w ||| v.weakOf w))

/-- The bits that some of the words set, and those that at least two of them set. -/
def onceTwice (ws : List Word) : Word × Word := ws.foldl (fun p w => (p.1 ||| w, p.2 ||| (p.1 &&& w))) (0, 0)

/-- The bits of copy word q that two votes agree on, bit by bit (R367): those at 1 and those at 0. -/
def FuseView.majority (v : FuseView) (cs : List Nat) (q : Nat) : Word × Word :=
  let bs := v.ballots cs q
  ((onceTwice (bs.map (·.1))).2, (onceTwice (bs.map (·.2))).2)

/-- How many bits of copy word q its field uses, from bit 0 (R366). -/
def critWidth (q : Nat) : Nat :=
  if q < 2 then 18 else if q = 2 then 2 else if q = 3 then 1 else if q < 6 then 10 else if q < 22 then 16 else 18

/-- The bits of copy word q that its field uses. -/
def critMask (q : Nat) : Word := BitVec.ofNat 18 (2 ^ critWidth q - 1)

/-- Copy word q as copies `cs` resolve it, in the bits its field uses; none when one of them does not resolve. -/
def FuseView.critOf (v : FuseView) (cs : List Nat) (q : Nat) : Option Word :=
  let m := v.majority cs q
  if (m.1 ||| m.2) &&& critMask q = critMask q then some (m.1 &&& critMask q) else none

/-- The resolved copy word q. -/
def FuseView.crit (v : FuseView) (q : Nat) : Option Word := v.critOf v.voters q

/-- The voting copies disagree on a bit of a critical field that still resolves (R368, source 127). -/
def FuseView.copiesDiffer (v : FuseView) : Bool :=
  let cs := v.voters
  (List.range 56).any fun q =>
    let bs := v.ballots cs q
    let m := v.majority cs q
    (onceTwice (bs.map (·.1))).1 &&& (onceTwice (bs.map (·.2))).1 &&& (m.1 ||| m.2) &&& critMask q ≠ 0

/-- The role a die must hold (R366). -/
def roleCode : Die → Nat
  | .A => 1
  | .B => 2

/-- DIE_ID, ROLE and BOOT_DIGEST resolve; without them the die does not leave Fuse read (R368). -/
def FuseView.identity (v : FuseView) (d : Die) : Bool :=
  let cs := v.voters
  (v.critOf cs 0).isSome && (v.critOf cs 1).isSome && ((v.critOf cs 2).map fun w => fld w 1 0) = some (roleCode d)
    && (List.range 16).all fun i => (v.critOf cs (6 + i)).isSome

/-- A field that is taken at its substitute does not resolve (R368), a critical copy has no region and no spare (R373), or
a map entry clashes (R365): source 129. -/
def FuseView.unresolved (v : FuseView) : Bool :=
  let cs := v.voters
  (v.critOf cs 3).isNone || (v.critOf cs 4).isNone || (v.critOf cs 5).isNone
    || ((List.range 34).any fun i => (v.critOf cs (22 + i)).isNone)
    || ((List.range 8).any v.mapClash)
    || ((List.range 12).any fun i => (v.server (i + 1)).isNone)

/-- Source 128: a lost region is served by a spare. -/
def FuseView.spareUsed (v : FuseView) : Bool := (List.range 24).any fun r => (v.spareOf r).isSome

/-- DEBUG_DIS of a die, 1 where it does not resolve. -/
def FuseView.debugDis (v : FuseView) : Bool := ((v.crit 3).map fun w => w.getLsbD 0).getD true

/-- BOOT_DIGEST, laid out as R91 lays out a digest. -/
def FuseView.bootDigest (v : FuseView) : Octets :=
  let cs := v.voters
  digestOfWords ((List.range 16).map fun i => (v.critOf cs (6 + i)).getD 0)

/-- DIE_ID: the die's serial, U36 over two words (R10); none where it does not resolve. -/
def FuseView.dieId (v : FuseView) : Option Nat :=
  match v.crit 0, v.crit 1 with
  | some l, some h => some (u36 l h)
  | _, _ => none

/-- The trim code of copy word 4 (OSC_TRIM) or 5 (REF_TRIM), the nominal one where it does not resolve (R368). -/
def FuseView.trim (v : FuseView) (q : Nat) : BitVec 10 := ((v.crit q).map fun w => w.setWidth 10).getD 0o1000

/-- The memories of SRAM_REPAIR (R366). -/
inductive RepairMem where
  | dataTable
  | instr
  deriving DecidableEq, Repr

/-- Entry i of SRAM_REPAIR: the memory and the row of 64 words that a redundant row replaces; none where it is unused, as one
that does not resolve is taken (R368). -/
def FuseView.repair (v : FuseView) (i : Nat) : Option (RepairMem × BitVec 16) :=
  match v.crit (22 + i) with
  | some w =>
    if fld w 17 16 = 1 then some (.dataTable, w.setWidth 16)
    else if fld w 17 16 = 2 then some (.instr, w.setWidth 16)
    else none
  | none => none

/-! ## Resolved words (R371, R372) -/

/-- Word j of physical region r with its weak bits resolved. -/
def FuseView.word (v : FuseView) (r j : Nat) : Word :=
  let w := v.low (16 * r + j)
  if r = 0 then v.ones j
  else if r ≤ 12 then
    let q := (r - 1) % 4 * 14 + j
    if 14 ≤ j then w
    else
      let m := v.majority v.voters q
      let weak := v.weakOf (16 * r + j)
      (w &&& ~~~(weak &&& (m.1 ||| m.2))) ||| (weak &&& m.1)
  else match v.lregOf r with
    | some l => match v.sealed r l with
      | some ws => ws.getD j 0
      | none => w
    | none => w

/-- The word of logical region r as software sees it, before overrides: 0 when absent or read-locked. -/
def FuseView.logical (v : FuseView) (r j : Nat) : Word :=
  match v.server r with
  | some p => if v.rlock p || v.rlock r || v.lost p then 0 else v.word p j
  | none => 0

/-- FUS.REG_r (R379). -/
def FuseView.reg (v : FuseView) (r : Nat) : Word :=
  let absent := v.lost r && (v.spareOf r).isNone
  let cnt := match v.lregOf r with
    | some l => ((v.sealed r l).map fun ws => fld (ws.getD 14 0) 3 0).getD 0
    | none => 0
  BitVec.ofNat 18 (b2n absent * 2048 + b2n (v.spareOf r).isSome * 1024 + (v.spareOf r).getD 0 * 128
    + b2n (v.wlock r) * 64 + b2n (v.rlock r) * 32 + b2n (v.sealOk r) * 16 + (if r = 0 then 0 else cnt))

/-! ## The two arrays -/

/-- The array of a die. -/
def FusSt.of (f : FusSt) (d : Die) : FuseDie :=
  match d with
  | .A => f.a
  | .B => f.b

/-- Change the array of a die. -/
def State.modFuse (s : State) (d : Die) (f : FuseDie → FuseDie) : State :=
  match d with
  | .A => { s with fus := { s.fus with a := f s.fus.a } }
  | .B => { s with fus := { s.fus with b := f s.fus.b } }

/-- What each die reads of its fuses for use: the latched array, all 0 before sensing. -/
def FuseDie.used (f : FuseDie) : FuseView := if f.sensed then f.latched else { lo := [], hi := [], weak := [] }

/-- An override of logical word w is permitted (R374): the trims in any copy, and regions 13 to 23. -/
def ovrAllowed (w : Nat) : Bool :=
  w = 20 || w = 21 || w = 84 || w = 85 || w = 148 || w = 149 || (208 ≤ w && w < 384)

/-- The override of logical word w in force. -/
def FuseDie.ovrOf (f : FuseDie) (w : Nat) : Option Word := (f.ovr.find? fun x => x.1 = w).map (·.2)

/-- Logical region r, or the region that serves it, is read-locked: as sensed, or by a lock burned since (R372). -/
def FuseDie.readLocked (f : FuseDie) (r : Nat) : Bool :=
  let p := (f.used.server r).getD r
  f.used.rlock r || f.used.rlock p || f.present.rlock r || f.present.rlock p

/-- FUS.SHD_w: 0 in a read-locked region, else the override in force or the word of the shadow (R372, R379). -/
def FuseDie.shd (f : FuseDie) (w : Nat) : Word :=
  if f.readLocked (w / 16) then 0 else (f.ovrOf w).getD (f.used.logical (w / 16) (w % 16))

/-- FUS.RAW_w: physical word w at the low reference, 0 before sensing and in a read-locked region (R372, R379). -/
def FuseDie.raw (f : FuseDie) (w : Nat) : Word :=
  if !f.sensed || f.used.rlock (w / 16) || f.present.rlock (w / 16) then 0 else f.present.low w

/-- What the resolved fields put on their dedicated wires (R367): trims for the PLL, the references and supervisors, repairs
for the SRAM logic, the digest for the boot loader, DEBUG_DIS for the debug port. -/
structure FuseWires where
  osc : BitVec 10
  ref : BitVec 10
  repairs : List (RepairMem × BitVec 16)
  boot : Octets
  debugDis : Bool
  deriving DecidableEq, Repr

/-- The trim in force of copy word q: the latest override of it in any copy, otherwise the resolved field (R374, log 59). -/
def FuseDie.trim (f : FuseDie) (q : Nat) : BitVec 10 :=
  match (f.ovr.filter fun x => x.1 = 16 + q || x.1 = 80 + q || x.1 = 144 + q).getLast? with
  | some x => x.2.setWidth 10
  | none => f.used.trim q

/-- The dedicated wires of a die. -/
def FuseDie.wires (f : FuseDie) : FuseWires :=
  { osc := f.trim 4, ref := f.trim 5, repairs := (List.range 34).filterMap f.used.repair, boot := f.used.bootDigest,
    debugDis := f.used.debugDis }

/-- The Safety Authority key that region 13 brings to the key store over its dedicated wire (R272), laid out as a digest
(log 7); read locks and overrides do not act on it. -/
def FuseDie.keyWire (f : FuseDie) : Octets :=
  match f.used.server 13 with
  | some p => digestOfWords ((List.range 16).map (f.used.word p))
  | none => List.replicate 32 0

/-- The interlock of R375: both dies, which must run to do so, signal that the module is Moored or in Bench. -/
def moorInterlock (s : State) : Bool := s.runs .A && s.runs .B && moduleMoored s

/-- WCNT. -/
def FuseDie.wcnt (f : FuseDie) : Nat :=
  min 511 (f.weak.foldl (fun a x => a + countIf (List.range 18) fun b => x.2.getLsbD b) 0)

/-- FUS.STAT of a die. -/
def fusStat (s : State) (d : Die) : Word :=
  let f := s.fus.of d
  BitVec.ofNat 18 (b2n f.sensed * 131072 + b2n f.resense * 65536 + b2n (!f.ovr.isEmpty) * 32768
    + b2n (moorInterlock s) * 16384 + f.wcnt)

/-- FUS.PSTAT. -/
def fusPstat (s : State) : Word :=
  BitVec.ofNat 18 (b2n s.fus.busy * 131072 + s.fus.res.toNat * 16384 + s.fus.pulses.toNat * 256 + s.fus.reason.toNat)

/-! ## Power-up sensing (R369) and its sources -/

/-- Both references are read into the shadow and the marks. -/
def FuseDie.sense (f : FuseDie) : FuseDie :=
  { f with shLo := f.lo, shHi := f.hi, weak := fuseDiff f.lo f.hi, sensed := true, ovr := [],
           ovrNext := [], ovrClear := false, pos := 0, resense := false }

/-- Any reset of a die without a power-up: overrides are gone, a pass ends, and the latched values stay without sensing again
(R374, R396). -/
def FuseDie.restarted (f : FuseDie) : FuseDie :=
  { f with ovr := [], ovrNext := [], ovrClear := false, pos := 0, resense := false }

/-- A die's array where its power-up begins anew: nothing sensed (R369, R391). -/
def FuseDie.unsensed (f : FuseDie) : FuseDie := { lo := f.lo, hi := f.hi }

/-- The sources that the sensing of a die raises (R323): weak bits, disagreeing copies, spares used, unresolved; on the
B-die EVB 47 for any of them. -/
def senseSources (s : State) (d : Die) : State :=
  let v := (s.fus.of d).latched
  let weak := !(s.fus.of d).weak.isEmpty
  let differs := v.copiesDiffer
  match d with
  | .A =>
    let s1 := fireIf s weak 126
    let s2 := fireIf s1 differs 127
    let s3 := fireIf s2 v.spareUsed 128
    fireIf s3 v.unresolved 129
  | .B => fireIf s (weak || differs || v.spareUsed || v.unresolved) 47

/-! ## Burning commands (R375 to R378) -/

/-- The intended value of a bit (R378). -/
def FuseView.intended (v : FuseView) (r j b : Nat) : Option Bool :=
  if r = 0 then some true
  else if r ≤ 12 && j < 14 then
    let c := (r - 1) / 4
    let q := (r - 1) % 4 * 14 + j
    let others := ((List.range 3).filter (· ≠ c)).filterMap fun k =>
      match v.critWord k q with
      | some w => if v.copyVotes k && !(v.weakOf w).getLsbD b then some ((v.low w).getLsbD b) else none
      | none => none
    match others with
    | [x, y] => if x = y then some x else none
    | _ => none
  else match v.lregOf r with
    | some l => (v.sealed r l).map fun ws => (ws.getD j 0).getLsbD b
    | none => none

/-- Physical word w as a burning command takes it: weak bits as 1 in region 0, as a valid seal settles them, and as their
low-reference value in an unsealed region (R371, log 59). -/
def FuseView.reads (v : FuseView) (w : Nat) : Word :=
  let r := w / 16
  if r = 0 then v.ones w
  else match v.lregOf r with
    | some l => match v.sealed r l with
      | some ws => ws.getD (w % 16) 0
      | none => v.low w
    | none => v.low w

/-- The seal words SEAL computes. -/
def sealWords (v : FuseView) (r lreg cnt : Nat) : Word × Word :=
  let n : Word := BitVec.ofNat 18 (0b1011 * 16384 + lreg * 16 + cnt)
  let data := (List.range (min cnt 14)).map fun j => v.reads (16 * r + j)
  (n, BitVec.ofNat 18 (2 * 65536 + (crc16 (be 3 n.toNat ++ wordsOct data)).toNat))

/-- The two words and the bit that lock region r, from the first word of each copy. -/
def lockWords (base1 base2 r : Nat) : List (Nat × Word) :=
  let k := if r < 16 then 0 else 1
  let bit : Word := BitVec.ofNat 18 (2 ^ (r % 16))
  [(base1 + k, bit), (base2 + k, bit)]

/-- What a command would burn, or the reason it is refused (R376, R379). -/
def burnPlan (v : FuseView) (op r j b : Nat) (value : Word) : Except Nat (List (Nat × Word)) :=
  let reads (w : Nat) : Word := v.reads w
  let missing (w : Nat) (x : Word) : Nat × Word := (w, x &&& ~~~ v.low w)
  let clears (w : Nat) (x : Word) : Bool := (reads w &&& ~~~ x) ≠ 0
  match op with
  | 1 =>
    if r = 0 then .error 8
    else if v.wlock r then .error 2
    else if reads (16 * r + 14) ≠ 0 ∨ reads (16 * r + 15) ≠ 0 then .error 3
    else if clears (16 * r + j) value then .error 4
    else .ok [missing (16 * r + j) value]
  | 2 =>
    let sw := sealWords v r (if 24 ≤ r then fld value 8 4 else r) (fld value 3 0)
    if r = 0 then .error 8
    else if v.wlock r then .error 2
    else if clears (16 * r + 14) sw.1 ∨ clears (16 * r + 15) sw.2 then .error 4
    else .ok [missing (16 * r + 14) sw.1, missing (16 * r + 15) sw.2]
  | 3 =>
    let fits := if r < 24 then sealFits (v.trial r 0) r
      else (List.range 23).any fun l => sealFits (v.trial r 0) (l + 1)
    if r = 0 then .error 8
    else if !(v.weakBits r).isEmpty || !fits then .error 5
    else .ok ((lockWords 0 4 r).map fun x => missing x.1 (x.2 ||| v.low x.1))
  | 4 =>
    if r = 0 then .error 8 else .ok ((lockWords 2 6 r).map fun x => missing x.1 (x.2 ||| v.low x.1))
  | 5 =>
    let e := r - 24
    let lreg := fld value 4 0
    let entry := 128 + lreg
    let shift := if e % 2 = 0 then 256 else 1
    let free (x : Nat) : Bool := x = 0 || x = entry
    if r < 24 ∨ lreg = 0 ∨ 23 < lreg then .error 8
    else if !(v.wlock r && (v.sealed r lreg).isSome) then .error 7
    else if !(free (v.mapByte 8 e) && free (v.mapByte 12 e)) then .error 4
    else
      let bits : Word := BitVec.ofNat 18 (entry * shift)
      .ok ([8 + e / 2, 12 + e / 2].map fun w => missing w (bits ||| v.low w))
  | 6 =>
    if b ≤ 17 && (v.weakOf (16 * r + j)).getLsbD b && v.intended r j b = some true then
      .ok [(16 * r + j, BitVec.ofNat 18 (2 ^ b))]
    else .error 6
  | _ => .error 8

/-- FUS.PSTAT after a command that ends. -/
def fusEnds (s : State) (res : BitVec 3) (pulses : BitVec 6) (reason : BitVec 4) : State :=
  { s with fus := { s.fus with busy := false, res := res, pulses := pulses, reason := reason, burn := none } }

/-- A die is within the A-die's reach for fuse commands (reason 9). -/
def fuseReach (s : State) (d : Die) : Bool := s.runs .A && s.runs d

/-- A command is written while FUS is idle: READ answers at once; a burning command is refused or starts (R375, R376). -/
def fuseCommand (s : State) (op : Nat) (d : Die) (r j b : Nat) (value : Word) (via : FuseVia) : State :=
  let v := (s.fus.of d).present
  if op = 7 then
    if !fuseReach s d then fusEnds s 2 0 9
    else
      let w := if v.rlock r then 0 else v.word r j
      fusEnds { s with fus := { s.fus with pdata := w } } 1 0 0
  else if !fuseReach s d then fusEnds s 2 0 9
  else if !moorInterlock s then fusEnds s 2 0 1
  else match burnPlan v op r j b value with
    | .error e => fusEnds s 2 0 (BitVec.ofNat 4 e)
    | .ok ws =>
      { s with fus := { s.fus with
          busy := true, res := 0, pulses := 0, reason := 0,
          burn := some { die := d, op := BitVec.ofNat 3 op, words := ws, via := via } } }

/-- PCMD with operation OP: ignored while BUSY, and for an OP the table does not name (R376, R379). -/
def pcmdWrite (s : State) (op : Nat) : State :=
  let a := s.fus.paddr
  if s.fus.busy || op = 0 then s
  else fuseCommand s op (if a.getLsbD 17 then .B else .A) (fld a 13 9) (fld a 8 5) (fld a 4 0) s.fus.pdata .regs

/-- The bits of a burn are set in a table. -/
def burnInto (t : List (Nat × Word)) (ws : List (Nat × Word)) : List (Nat × Word) :=
  ws.foldl (fun t x => cellSet 0 t x.1 (cellGet 0 t x.1 ||| x.2)) t

/-- The marks of burned bits are gone. -/
def unmark (t : List (Nat × Word)) (ws : List (Nat × Word)) : List (Nat × Word) :=
  ws.foldl (fun t x => cellSet 0 t x.1 (cellGet 0 t x.1 &&& ~~~ x.2)) t

/-- A burn ends (R377): done, every bit reads 1 at both references; or verify failure, the first word's bits as `lo` and
`hi` then read. -/
def burnEnd (s : State) (x : Burn) (pulses : BitVec 6) (ok : Bool) (lo hi : Word) : State :=
  let s1 := s.modFuse x.die fun f =>
    if ok then
      { f with lo := burnInto f.lo x.words, hi := burnInto f.hi x.words, weak := unmark f.weak x.words }
    else
      let w := x.words.headD (0, 0)
      let f := { f with lo := burnInto f.lo [(w.1, w.2 &&& lo)], hi := burnInto f.hi [(w.1, w.2 &&& hi)] }
      { f with weak := cellSet 0 f.weak w.1 (cellGet 0 f.weak w.1 ||| (cellGet 0 f.lo w.1 ^^^ cellGet 0 f.hi w.1)) }
  fusEnds s1 (if ok then 1 else 3) pulses 0

/-- A reset or a loss of power cuts a burn off: its bits are left weak or unburned, whichever is free (R377, log 59). -/
def burnCut (s : State) : State :=
  match s.fus.burn with
  | none => s
  | some x =>
    let s1 := s.modFuse x.die fun f =>
      { f with lo := burnInto f.lo (x.words.map fun y => (y.1, y.2 &&& Config.burnBroken s.draws y.1)) }
    { s1 with draws := s.draws + 1, fus := { s1.fus with burn := some { x with words := [], cut := true } } }

/-! ## Re-sense passes (R370) -/

/-- One re-sensed word: its new mark, and whether a bit became weak. A bit is weak whose readings differ, and one that read
cleanly at power-up and now reads otherwise (R370); any other reading is clean. -/
def resenseWord (f : FuseDie) (w : Nat) (lo hi : Word) : FuseDie × Bool :=
  let sl := cellGet 0 f.shLo w
  let sh := cellGet 0 f.shHi w
  let weak := (lo ^^^ hi) ||| (~~~ (sl ^^^ sh) &&& (lo ^^^ sl))
  let old := cellGet 0 f.weak w
  ({ f with lo := cellSet 0 f.lo w lo, hi := cellSet 0 f.hi w hi, weak := cellSet 0 f.weak w weak },
    (weak &&& ~~~ old) ≠ 0)

/-- Eight words of the pass of a die, and whether a bit became weak. -/
def resenseDie (f : FuseDie) (now : Tide) (rs : List (Word × Word)) : FuseDie × Bool :=
  if f.pos = 0 && later f.passAt now then (f, false)
  else
    let f0 := if f.pos = 0 then { f with passAt := tideAdd now 65536 } else f
    let step := (rs.take 8).foldl (fun (x : FuseDie × Bool) r =>
      let y := resenseWord x.1 x.1.pos r.1 r.2
      ({ y.1 with pos := y.1.pos + 1 }, x.2 || y.2)) (f0, false)
    let p := f0.pos + 8
    ({ step.1 with pos := if 512 ≤ p then 0 else p, resense := p < 512 }, step.2)

/-- A die takes part in re-sensing: it runs, and no command burns in it (R375). -/
def mayResense (s : State) (d : Die) : Bool := s.runs d && (s.fus.burn.map fun x => x.die) ≠ some d

/-- FUSE_RESENSE: the readings of 8 words of each die, once in the guard phase of a tide from state Running onwards (R370);
hold-up stops it (R387). -/
def execFuseResense (ra rb : List (Word × Word)) (s : State) : Host.Outcome State Fault Refusal :=
  if !s.fus.ran || s.tide.ph ≠ 5 || s.fus.doneAt = some s.now || s.pws.hold then .next s
  else
    let xa := if mayResense s .A then resenseDie s.fus.a s.now ra else (s.fus.a, false)
    let xb := if mayResense s .B then resenseDie s.fus.b s.now rb else (s.fus.b, false)
    let s1 : State := { s with fus := { s.fus with a := xa.1, b := xb.1, doneAt := some s.now } }
    .next (fireIf (fireIf s1 xa.2 126) xb.2 47)

/-! ## Overrides (R374, R379) -/

/-- An override for logical word w waits for the boundary. -/
def FuseDie.override (f : FuseDie) (w : Nat) (v : Word) : FuseDie :=
  { f with ovrNext := (f.ovrNext.filter fun x => x.1 ≠ w) ++ [(w, v)] }

/-- Overrides at a tide boundary: a clear, then the written ones. -/
def FuseDie.boundary (f : FuseDie) : FuseDie :=
  let base := if f.ovrClear then [] else f.ovr
  { f with ovr := f.ovrNext.foldl (fun l x => (l.filter fun y => y.1 ≠ x.1) ++ [x]) base, ovrNext := [],
           ovrClear := false }

/-- A clear of every override is due at the boundary; overrides written before it are dropped. -/
def FuseDie.clearOvr (f : FuseDie) : FuseDie := { f with ovrClear := true, ovrNext := [] }

/-- A write of FUS.OVR_w (R374, R379). -/
def ovrWrite (s : State) (d : Die) (w : Nat) (v : Word) : State :=
  if ovrAllowed w && moorInterlock s then s.modFuse d fun f => f.override w v else s

/-! ## The debug port (R306, R349, R366) -/

/-- DEBUG_HALT: in Bench, unless DEBUG_DIS is 1. -/
def execDebugHalt (s : State) : Host.Outcome State Fault Refusal :=
  if s.start.bench && !s.fus.a.wires.debugDis then .next { s with tim := { s.tim with halt := true } } else .next s

/-- DEBUG_RESUME. -/
def execDebugResume (s : State) : Host.Outcome State Fault Refusal :=
  if s.tim.halt then .next (debugResume s) else .next s

/-! ## The FUS window (R379) -/

/-- A read at an offset of the FUS window. -/
def fusRegRead (s : State) (off : Nat) : Word :=
  let f := s.fus.a
  if off < 0o1000 then f.shd off
  else if off < 0o2000 then f.raw (off - 0o1000)
  else if off < 0o3000 then f.present.weakOf (off - 0o2000)
  else if off < 0o4000 then (f.ovrOf (off - 0o3000)).getD 0
  else if off = 0o4000 then fusStat s .A
  else if off = 0o4002 then s.fus.paddr
  else if off = 0o4003 then s.fus.pdata
  else if off = 0o4004 then fusPstat s
  else if 0o4040 ≤ off && off < 0o4100 then f.used.reg (off - 0o4040)
  else 0

/-- A write at an offset of the FUS window. -/
def fusRegWrite (s : State) (off : Nat) (v : Word) : State :=
  if 0o3000 ≤ off && off < 0o4000 then ovrWrite s .A (off - 0o3000) v
  else if off = 0o4001 then pcmdWrite s (v.toNat % 8)
  else if off = 0o4002 then { s with fus := { s.fus with paddr := v &&& 0o437777 } }
  else if off = 0o4003 then { s with fus := { s.fus with pdata := v } }
  else if off = 0o4005 then (if v = 1 then s.modFuse .A FuseDie.clearOvr else s)
  else s

end Sys2Proof.Machine
end

