-- ==== Sys2Proof/Machine/LocalIo.lean ====
section
/-!
DEFINITION. Local safe inputs, outputs and test pulses (R184 to R206): what LIO and TPG do at intake close and at emission
start, and the commands of their checks and tests.
-/

namespace Sys2Proof.Machine

/-! ## Small readings -/

/-- The bit-wise majority of five reads, as R184 and R190 take it. -/
def majority {n : Nat} (rs : List (BitVec n)) : BitVec n :=
  BitVec.ofNat n ((List.range n).foldl (fun a i => a + b2n (decide (3 ≤ countIf rs fun r => r.getLsbD i)) * 2 ^ i) 0)

/-- Change the LIO and TPG state. -/
def State.modLio (s : State) (f : LioSt → LioSt) : State := { s with lio := f s.lio }

/-- The inputs a feed supplies, by section 3. -/
def feedInputs (n : Net) (f : Nat) : BitVec 32 := bitsOf 32 fun t => (n.inPoint t).isSome && n.inFeed t = f

/-- A test runs on output q. -/
def LioSt.testing (l : LioSt) (q : Nat) : Bool := l.tests.any fun t => t.q.val = q

/-- The supply of an output is held open after an over voltage (R200). -/
def LioSt.heldOff (l : LioSt) (q : Nat) : Bool := if q < 8 then 0 < l.offA else 0 < l.offB

/-- The combined command of an output (R193): with the command link down the other's command counts as 0. -/
def LioSt.combined (l : LioSt) (q : Nat) : Bool := !l.linkDown && l.cmdA.getLsbD q && l.cmdB.getLsbD q

/-- The supply of an output is under voltage, as either front end finds (R200). -/
def LioSt.underV (l : LioSt) (q : Nat) : Bool := if q < 8 then 4 ≤ l.uvA || 4 ≤ l.uvA2 else 4 ≤ l.uvB || 4 ≤ l.uvB2

/-- The supply of an output is over voltage, as either front end finds (R200). -/
def LioSt.overV (l : LioSt) (q : Nat) : Bool := if q < 8 then l.ovA = 2 || l.ovA2 = 2 else l.ovB = 2 || l.ovB2 = 2

/-- Die d's switch of output q is held open after a dark test of the other switch has failed (R196). -/
def LioSt.opened (l : LioSt) (d : Die) (q : Nat) : Bool := (l.hist.getD q {}).openSw = some d

/-- Feeds and sensor supplies in a state of the module (R187, R397): off from hold-up on (R387). -/
def feedsIn (s : State) (m : Mode) : State :=
  s.modLio fun l => { l with
    lit := !s.pws.hold && (m = .enrol || m = .live),
    sens := !s.pws.hold && (m = .load || m = .translate || m = .enrol || m = .live) }

/-! ## Intake close -/

/-- The value samples with their fault flags, the words both channels enter and the discrepancy of R186. -/
def lioSample (s : State) (pins : PinSample) : State :=
  let a := majority pins.inA
  let b := majority pins.inB
  let flt := s.lio.fltNext
  let words := (List.range 32).filterMap fun t =>
    (s.netA.inPoint t).map fun p =>
      if a.getLsbD t = b.getLsbD t ∧ flt.getLsbD t = false then (p, bWord (a.getLsbD t))
      else (p, substWord (s.netA.decl p))
  let differ (t : Nat) : Bool := a.getLsbD t != b.getLsbD t
  let disc (t : Nat) : Nat :=
    let d := s.lio.disc.getD t 0
    if differ t then min (d + 1) 4 else if d = 4 ∧ s.lio.agree.getD t 0 + 1 < 4 then 4 else 0
  let agree (t : Nat) : Nat := if differ t then 0 else min (s.lio.agree.getD t 0 + 1) 4
  let hits := (List.range 32).filter fun t => differ t && s.lio.disc.getD t 0 = 3
  let s1 := s.modLio fun l => { l with
    inA := a, inB := b, flt := flt, inWords := words, disc := (List.range 32).map disc,
    agree := (List.range 32).map agree, isens := pins.isens }
  hits.foldl (fun s t => fire s 94 0 (BitVec.ofNat 32 t)) s1

/-- The supplies at intake close, as each front end measures them; either one's finding counts (R200). VSUPA and VSUPB hold
what front end A measures. -/
def lioSupply (s : State) (pins : PinSample) : State :=
  let uv (v : Word) (k : Nat) : Nat := if v.toNat < 1920 then min (k + 1) 4 else 0
  let ov (v : Word) (k : Nat) : Nat := if 3200 < v.toNat then min (k + 1) 2 else 0
  let hold (v v2 : Word) (hit : Bool) (k : Nat) : Nat :=
    if hit then 64 else if k = 0 then 0 else if v.toNat ≤ 3000 && v2.toNat ≤ 3000 then k - 1 else 64
  let old := s.lio
  let new : LioSt := { old with
    vsupA := pins.supA, vsupB := pins.supB,
    uvA := uv pins.supA old.uvA, uvB := uv pins.supB old.uvB,
    uvA2 := uv pins.supA2 old.uvA2, uvB2 := uv pins.supB2 old.uvB2,
    ovA := ov pins.supA old.ovA, ovB := ov pins.supB old.ovB,
    ovA2 := ov pins.supA2 old.ovA2, ovB2 := ov pins.supB2 old.ovB2 }
  let s1 : State := { s with lio := { new with
    offA := hold pins.supA pins.supA2 (new.overV 0) old.offA, offB := hold pins.supB pins.supB2 (new.overV 8) old.offB } }
  let comes (n : Nat) (was is was2 is2 : Nat) : Bool := (is = n && was < n) || (is2 = n && was2 < n)
  let s2 := fireIf s1 (comes 4 old.uvA new.uvA old.uvA2 new.uvA2) 107
  let s3 := fireIf s2 (comes 4 old.uvB new.uvB old.uvB2 new.uvB2) 108
  let s4 := if comes 2 old.ovA new.ovA old.ovA2 new.ovA2 then fire s3 109 (s.netA.outGroups (List.range 8)) 0 else s3
  if comes 2 old.ovB new.ovB old.ovB2 new.ovB2 then fire s4 109 (s.netA.outGroups ((List.range 8).map (· + 8))) 1 else s4

/-- The value bit and the TST bit of the committed word of output q on a die; 0 where section 3 leaves q unused. -/
def outWord (s : State) (d : Die) (q : Nat) : Word :=
  match ((s.die d).net.getD Net.empty).outPoint q with
  | some p => committedWord s d p
  | none => 0

/-- LIO applies the words committed in the previous tide (R73), a moored channel or one in reset withdrawing its command
(R27). An overload latch clears where the applied value is 0 (R194). -/
def lioApply (s : State) : State :=
  let live := s.mode = .live
  let v (d : Die) (q : Nat) : Bool :=
    live && (outWord s d q).getLsbD 0 && !(s.die d).mooring && !(s.die d).inReset
  let l := s.lio
  let ovl := bitsOf 16 fun q => l.qovl.getLsbD q && (outWord s .A q).getLsbD 0
  let want (d : Die) : BitVec 16 := bitsOf 16 fun q => v d q && !ovl.getLsbD q && !l.heldOff q && !l.opened d q
  let wa := want .A
  let wb := want .B
  let cmd (w old : BitVec 16) : BitVec 16 := bitsOf 16 fun q =>
    if l.testing q && !(old.getLsbD q) then false else w.getLsbD q
  let ca := cmd wa l.cmdA
  let cb := cmd wb l.cmdB
  s.modLio fun l => { l with
    qovl := ovl, wantA := wa, wantB := wb, cmdA := ca, cmdB := cb,
    applied := bitsOf 16 fun q => (outWord s .A q).getLsbD 0,
    marked := bitsOf 16 fun q => live && (outWord s .A q).getLsbD 14 && qOf (outWord s .A q) = 0,
    switching := (List.range 16).map fun q =>
      if ca.getLsbD q = l.cmdA.getLsbD q ∧ cb.getLsbD q = l.cmdB.getLsbD q then l.switching.getD q 0 else 10 }

/-- Everything LIO does at intake close: the sample first, then the supplies and the outputs (R73), and what LIO.QOVL and
LIO.QFLT show (R203). -/
def lioIntake (s : State) (pins : PinSample) : State :=
  (lioApply (lioSupply (lioSample s pins) pins)).modLio fun l => { l with regOvl := l.qovl, regFlt := l.qflt }

/-! ## Emission start -/

/-- The feed that pulses in a tide (R188). -/
def pulseFeed (s : State) : Option Nat :=
  (List.range 8).find? fun f =>
    s.netA.feedCode f ≠ 0 && s.now.toNat % s.netA.feedPeriod f = s.netA.feedSlot f % s.netA.feedPeriod f

/-- A dark test of a switch is due as a repetition (R197): after the CLEAR of source 103 and the unmooring of the group, once the
output is energised. -/
def retestDue (s : State) (q : Fin 16) : Option Die :=
  let l := s.lio
  let moored := s.mooredM || gHas s.mooredG (((s.netA.outPoint q.val).map groupOf).getD 0)
  if l.combined q.val && !moored then (l.hist.getD q.val {}).retest else none

/-- The test output q runs in this emission phase (R195, R197), if any: the one that is due again, otherwise the marked one.
A channel that is moored, in reset or not commanding the output runs none. -/
def testOf (s : State) (q : Fin 16) : Option OutTest :=
  let l := s.lio
  let tp := s.netA.testPeriod q.val
  let may (d : Die) : Bool := !(s.die d).mooring && !(s.die d).inReset && !s.mooredM
  let cmd (d : Die) : Bool := match d with
    | .A => l.cmdA.getLsbD q.val
    | .B => l.cmdB.getLsbD q.val
  let dark (d : Die) : OutTest := { q := q, bright := false, sw := d, passed := false, failed := false }
  let again := (retestDue s q).filter fun d => may d && cmd d
  let slot : Die := if (s.now - 1).toNat / tp % 2 = 0 then .A else .B
  match again with
  | some d => some (dark d)
  | none =>
    if !l.marked.getLsbD q.val then none
    else if l.applied.getLsbD q.val then (if may slot && cmd slot then some (dark slot) else none)
    else if may .A && may .B && !l.qovl.getLsbD q.val && !l.heldOff q.val then
      some { q := q, bright := true, sw := .A, passed := false, failed := false }
    else none

/-- Show a test in LIO.TEST. -/
def LioSt.showTest (l : LioSt) (t : OutTest) : LioSt :=
  { l with tAct := true, tKind := if t.bright then 1 else 0, tSw := t.sw == .B, tQn := BitVec.ofNat 4 t.q.val }

/-- Pulses and output tests of an emission phase (R188, R195). While several tests run, LIO.TEST names the highest-numbered
output (log 88). -/
def lioEmission (s : State) : State :=
  if !(s.mode = .enrol || s.mode = .live) || s.pws.hold then s
  else
    let s1 := match pulseFeed s with
      | some f => s.modLio fun l => { l with tpgAct := BitVec.ofNat 8 (2 ^ f), pulse := some f }
      | none => s.modLio fun l => { l with pulse := none }
    let ts := (List.finRange 16).filterMap (testOf s1)
    let s2 := s1.modLio fun l => { l with tests := ts }
    ts.foldl (fun s t => s.modLio fun l => l.showTest t) s2

/-! ## Pulse and after checks (R190, R191) -/

/-- Flag an input and every input of its feed from the next intake close. -/
def flagFeed (s : State) (f : Nat) (extra : BitVec 32) : State :=
  s.modLio fun l => { l with
    fltNext := l.fltNext ||| extra ||| feedInputs s.netA f,
    feedPass := listMod l.feedPass f fun _ => 0 }

/-- PULSE_CHECK: the majority of the five reads of each front end; the dark window is over. -/
def execPulseCheck (ra rb : List (BitVec 32)) (s : State) : Host.Outcome State Fault Refusal :=
  .next (s.modLio fun l => { l with pulseA := majority ra, pulseB := majority rb, tpgAct := 0 })

/-- The finding of one front end on one input (R190): some true is source 95, some false is source 96. -/
def pulseFinding (fed v p a : Bool) : Option Bool :=
  if fed then (if v && p then some true else none)
  else if v && !p && a then some false else none

/-- AFTER_CHECK: the findings of both front ends, their flags, and the passes that clear the flags of the feed. -/
def execAfterCheck (ra rb : List (BitVec 32)) (s : State) : Host.Outcome State Fault Refusal :=
  match s.lio.pulse with
  | none => .next s
  | some f =>
    let n := s.netA
    let a := majority ra
    let b := majority rb
    let l := s.lio
    let used := (List.range 32).filter fun t => (n.inPoint t).isSome
    let finding (t : Nat) : Option Bool :=
      let fed := n.inFeed t = f
      (pulseFinding fed (l.inA.getLsbD t) (l.pulseA.getLsbD t) (a.getLsbD t)).or
        (pulseFinding fed (l.inB.getLsbD t) (l.pulseB.getLsbD t) (b.getLsbD t))
    let s1 := used.foldl (fun s t => match finding t with
      | some notDark =>
        let s := fire s (if notDark then 95 else 96) 0 (BitVec.ofNat 32 t)
        flagFeed s (n.inFeed t) (BitVec.ofNat 32 (2 ^ t))
      | none => s) s
    let flagged := (List.range 32).filter fun t => (s1.lio.fltNext &&& feedInputs n f).getLsbD t
    let passes (t : Nat) : Bool :=
      l.inA.getLsbD t && !l.pulseA.getLsbD t && a.getLsbD t && l.inB.getLsbD t && !l.pulseB.getLsbD t && b.getLsbD t
    let ok := !flagged.isEmpty && flagged.all passes
    let k := if ok then s1.lio.feedPass.getD f 0 + 1 else 0
    .next (s1.modLio fun l => { l with
      pulse := none,
      feedPass := listMod l.feedPass f fun _ => if 2 ≤ k then 0 else k,
      fltNext := if 2 ≤ k then l.fltNext &&& ~~~ feedInputs n f else l.fltNext })

/-- TEST_FEED_OVERLOAD: T_n at its limit (source 110) or not dark in its own read-back (source 111). -/
def execTestFeedOverload (n : Fin 8) (stuck : Bool) (s : State) : Host.Outcome State Fault Refusal :=
  let s1 := if stuck then s else s.modLio fun l => { l with tpgOvl := setBit l.tpgOvl n.val true }
  let s2 := fire s1 (if stuck then 111 else 110) 0 (BitVec.ofNat 32 n.val)
  .next (flagFeed s2 n.val 0)

/-- SENS_OVERLOAD: a limit of R187 is reached (R200). -/
def execSensOverload (s : State) : Host.Outcome State Fault Refusal := .next (fire1 s 112)

/-! ## Read-back and command link (R193) -/

/-- A count of consecutive mismatches. -/
def streak (k : Nat) (bad : Bool) : Nat := if bad then min (k + 1) 5 else 0

/-- READBACK_SAMPLE: both front ends read all outputs and compare, outside switching time and test windows. -/
def execReadbackSample (ra rb : BitVec 16) (s : State) : Host.Outcome State Fault Refusal :=
  let l := s.lio
  let idle (q : Nat) : Bool := l.switching.getD q 0 = 0 && !l.testing q
  let next (old : List Nat) (bad : Nat → Bool) : List Nat :=
    (List.range 16).map fun q => if idle q then streak (old.getD q 0) (bad q) else 0
  let offMay (q : Nat) : Bool := l.combined q && !l.qovl.getLsbD q && !l.underV q
  let onA := next l.onAgainst fun q => ra.getLsbD q && !l.combined q
  let onB := next l.onAgainstB fun q => rb.getLsbD q && !l.combined q
  let offA := next l.offAgainst fun q => !ra.getLsbD q && offMay q
  let offB := next l.offAgainstB fun q => !rb.getLsbD q && offMay q
  let sp := next l.split fun q => ra.getLsbD q != rb.getLsbD q
  let hit (old new : List Nat) (q : Nat) : Bool := new.getD q 0 = 5 && old.getD q 0 ≠ 5
  let s1 := s.modLio fun l => { l with
    rbA := ra, rbB := rb, onAgainst := onA, onAgainstB := onB, offAgainst := offA, offAgainstB := offB, split := sp,
    switching := l.switching.map (· - 1) }
  .next ((List.range 16).foldl (fun s q =>
    let s := if hit l.onAgainst onA q || hit l.onAgainstB onB q then
      let s := fire s 100 0 (BitVec.ofNat 32 q)
      if hit l.onAgainstB onB q then reactB s else s
      else s
    let s := if hit l.offAgainst offA q || hit l.offAgainstB offB q then fire s 101 0 (BitVec.ofNat 32 q) else s
    if hit l.split sp q then fire s 102 (s.netA.outGroups [q]) (BitVec.ofNat 32 q) else s) s1)

/-- The command link fails or works again: each front end's copy of the other's commands changes, and their switching time
starts (R193). -/
def linkSet (s : State) (down : Bool) : State :=
  s.modLio fun l => { l with
    linkDown := down,
    switching := (List.range 16).map fun q =>
      if l.linkDown = down || !(l.cmdA ||| l.cmdB).getLsbD q then l.switching.getD q 0 else 10 }

/-- COMMAND_LINK_TRANSFER: three lost transfers in a row take the link down (source 99), which the B-die finds too; a good
transfer ends that (log 88). -/
def execCommandLinkTransfer (ok : Bool) (s : State) : Host.Outcome State Fault Refusal :=
  if ok then .next (linkSet (s.modLio fun l => { l with linkLost := 0 }) false)
  else
    let s1 := s.modLio fun l => { l with linkLost := min (l.linkLost + 1) 3 }
    if s.lio.linkLost = 2 then .next (reactB (fire1 (linkSet s1 true) 99)) else .next s1

/-- OUTPUT_OVERLOAD: both switches open and the latch is set (R194). -/
def execOutputOverload (q : Fin 16) (s : State) : Host.Outcome State Fault Refusal :=
  let s1 := s.modLio fun l => { l with
    qovl := setBit l.qovl q.val true, cmdA := setBit l.cmdA q.val false, cmdB := setBit l.cmdB q.val false,
    switching := listMod l.switching q.val fun _ => 10 }
  .next (fire s1 105 0 (BitVec.ofNat 32 q.val))

/-! ## Output tests (R196 to R199) -/

/-- The running test on an output. -/
def LioSt.test (l : LioSt) (q : Fin 16) : Option OutTest := l.tests.find? fun t => t.q = q

/-- Replace the running test on an output. -/
def LioSt.setTest (l : LioSt) (t : OutTest) : LioSt :=
  { l with tests := l.tests.map fun x => if x.q = t.q then t else x }

/-- A test ends with a result: LIO.TEST shows the highest output that ends in a tide (R203), and commands held back
during the test are applied (R199). A repetition that was aborted stays due (log 88). -/
def testEnd (s : State) (t : OutTest) (res : BitVec 2) : State :=
  s.modLio fun l =>
    let ts := l.tests.filter fun x => x.q ≠ t.q
    let shown := l.tEndTide ≠ some s.now || l.tQn.toNat ≤ t.q.val
    let ok (d : Die) : Bool := !l.qovl.getLsbD t.q.val && !l.heldOff t.q.val && !l.opened d t.q.val
    let l1 : LioSt := { l with
      tests := ts, tAct := !ts.isEmpty, tEndTide := some s.now,
      hist := listMod l.hist t.q.val fun h => if res ≠ 3 && h.retest = some t.sw then { h with retest := none } else h,
      cmdA := setBit l.cmdA t.q.val (l.wantA.getLsbD t.q.val && ok .A && (l.cmdA.getLsbD t.q.val || res ≠ 3)),
      cmdB := setBit l.cmdB t.q.val (l.wantB.getLsbD t.q.val && ok .B && (l.cmdB.getLsbD t.q.val || res ≠ 3)),
      switching := listMod l.switching t.q.val fun _ => 10 }
    if shown then
      { l1 with tRes := res, tKind := if t.bright then 1 else 0, tSw := t.sw == .B, tQn := BitVec.ofNat 4 t.q.val }
    else l1

/-- The first failure of a switch that still counts (R197). -/
def OutHist.first (h : OutHist) (now : Tide) (d : Die) : Option Tide :=
  (match d with
    | .A => h.failA
    | .B => h.failB).filter fun t => tideGap now t < 4096

/-- A dark test of switch d has failed in this tide: a failure within 4,096 tides of the first is the second one, a later
one is a first one again (R197); the other switch opens (R196). -/
def OutHist.fails103 (h : OutHist) (now : Tide) (d : Die) : OutHist :=
  let first := some ((h.first now d).getD now)
  let h1 : OutHist := { h with fails := sat16 h.fails, failSw := some d, openSw := some (Die.other d) }
  match d with
  | .A => { h1 with failA := first }
  | .B => { h1 with failB := first }

/-- A test fails (R196, R197): source 103 with the output's group, at Moor on the second failure of a switch within
4,096 tides, and the other switch opens; or source 104. -/
def testFail (s : State) (t : OutTest) : State :=
  let q := t.q.val
  if t.bright then
    fire (s.modLio fun l => { l with hist := listMod l.hist q fun h => { h with fails := sat16 h.fails } }) 104 0
      (BitVec.ofNat 32 q)
  else
    let again := ((s.lio.hist.getD q {}).first s.now t.sw).isSome
    let s1 := s.modLio fun l =>
      let l := { l with qflt := setBit l.qflt q true, hist := listMod l.hist q fun h => h.fails103 s.now t.sw }
      match t.sw with
      | .A => { l with cmdB := setBit l.cmdB q false }
      | .B => { l with cmdA := setBit l.cmdA q false }
    fire s1 103 (if again then 0 else s.netA.outGroups [q]) (BitVec.ofNat 32 q)

/-- OUTPUT_TEST_READBACK_PASS: the read-backs confirm the test and the switches return to their commands. -/
def execOutputTestReadbackPass (q : Fin 16) (s : State) : Host.Outcome State Fault Refusal :=
  match s.lio.test q with
  | some t => if t.failed then .next s else .next (s.modLio fun l => l.setTest { t with passed := true })
  | none => .next s

/-- OUTPUT_TEST_TIMEOUT: no pass by 150 µs. -/
def execOutputTestTimeout (q : Fin 16) (s : State) : Host.Outcome State Fault Refusal :=
  match s.lio.test q with
  | some t =>
    if t.passed || t.failed then .next s
    else .next (testFail (s.modLio fun l => l.setTest { t with failed := true }) t)
  | none => .next s

/-- OUTPUT_TEST_END: the read-back has returned, or has not by 250 µs. -/
def execOutputTestEnd (q : Fin 16) (returned : Bool) (s : State) : Host.Outcome State Fault Refusal :=
  match s.lio.test q with
  | some t =>
    if t.failed then .next (testEnd s t 2)
    else if !t.passed then .next s
    else if returned then
      let s1 := s.modLio fun l => if t.bright then l else { l with
        hist := listMod l.hist q.val fun h => match t.sw with
          | .A => { h with lastA := s.now }
          | .B => { h with lastB := s.now } }
      .next (testEnd s1 t 1)
    else .next (testEnd (testFail s t) t 2)
  | none => .next s

/-- TEST_ABORT: a command to the output has been withdrawn while its test runs (R198). -/
def execTestAbort (q : Fin 16) (s : State) : Host.Outcome State Fault Refusal :=
  match s.lio.test q with
  | some t =>
    let gone (d : Die) : Bool := (s.die d).mooring || (s.die d).inReset
    let latch := s.lio.qovl.getLsbD q.val
    if !(gone .A || gone .B || latch) then .next s
    else
      let s1 := s.modLio fun l => { l with
        cmdA := setBit l.cmdA q.val (l.cmdA.getLsbD q.val && !gone .A && !latch),
        cmdB := setBit l.cmdB q.val (l.cmdB.getLsbD q.val && !gone .B && !latch) }
      .next (fire (testEnd s1 t 3) 106 0 (BitVec.ofNat 32 q.val))
  | none => .next s

/-! ## What a CLEAR of LIO and TPG sources needs and does (R191, R197) -/

/-- Whether a rule of LIO or TPG keeps a source's cause alive. -/
def lioPersists (s : State) (src : Nat) : Bool :=
  if src = 95 || src = 96 || src = 110 || src = 111 then (s.lio.flt ||| s.lio.fltNext) ≠ 0
  else if src = 103 then (List.range 16).any fun q =>
    s.lio.qflt.getLsbD q && !s.lio.combined q && (s.lio.rbA.getLsbD q || s.lio.rbB.getLsbD q)
  else false

/-- What clearing a source does beyond its STAT bit: QFLT clears, the switch that a failed test opened follows its command
again, and the failed switch is tested again (R197). -/
def lioCleared (s : State) (src : Nat) : State :=
  if src = 103 then s.modLio fun l => { l with
    qflt := 0,
    hist := (List.range 16).map fun q =>
      let h := l.hist.getD q {}
      if l.qflt.getLsbD q then { h with retest := h.failSw, openSw := none } else h }
  else s

/-- A source is found from outside the commands of the tests (R205): a failed command link, a failed dark test for QFLT, and
a pulse or test that did not start in time and counts as not run; the subject names output Q_n by n and T_n by 16 + n (log
88). -/
def lioFound (s : State) (src : Nat) (subj : BitVec 32) : State :=
  let n := subj.toNat
  if src = 99 then linkSet s true
  else if src = 103 then s.modLio fun l => { l with qflt := setBit l.qflt (n % 16) true }
  else if src = 113 then s.modLio fun l =>
    if l.pulse = some (n - 16) && 16 ≤ n then { l with pulse := none, tpgAct := 0 }
    else
      let ts := l.tests.filter fun t => t.q.val ≠ n
      { l with tests := ts, tAct := !ts.isEmpty }
  else s

/-- The affected set of a source by its row, where the state shows it (R238, R205, R183, R322); otherwise as found. -/
def affected (s : State) (src : Nat) (gs : GSet) (subj : BitVec 32) : GSet :=
  let n := subj.toNat
  if 48 ≤ src && src < 80 && src % 8 = 7 then s.netA.portGroups ((src - 48) / 8)
  else match src with
    | 22 => setBit 0 (groupOf n) true
    | 44 => s.netA.portGroups n
    | 102 => s.netA.outGroups [n]
    | 103 => s.netA.outGroups [n]
    | 109 => s.netA.outGroups (if n = 0 then List.range 8 else (List.range 8).map (· + 8))
    | _ => gs

end Sys2Proof.Machine
end

