-- ==== Sys2Proof/Machine/Recorder.lean ====
section
/-!
DEFINITION. The Event Recorder (R405 to R419): pages and their chain, checkpoints, the flush, reads of its registers.
-/

namespace Sys2Proof.Machine

/-- The record groups that fit into some slots of a page, and the rest (R406). -/
def fitGroups : Nat → List (List Octets) → List Octets × List (List Octets)
  | _, [] => ([], [])
  | room, g :: t =>
    if g.length ≤ room then
      let r := fitGroups (room - g.length) t
      (g ++ r.1, r.2)
    else ([], g :: t)

/-- The slots of the open page, 1 to 253, and the groups after it. -/
def openPage (r : RecSt) : List Octets × List (List Octets) := fitGroups 253 r.queue

/-- A page never written (R419). -/
def blankPage : Octets := List.replicate 4096 0xFF

/-- The sequence number of the page being filled. -/
def RecSt.openSeq (r : RecSt) : Tide := match r.newest with
  | some k => k + 1
  | none => 0

/-- The ring position of the page being filled (R405). -/
def RecSt.openPos (r : RecSt) : Nat := match r.newest with
  | some _ => (r.newPos + 1) % (64 * r.usable)
  | none => 0

/-- The first 4,064 octets of a page: the PAGE record, the records, erased slots (R406, R409). The PAGE record carries the
stamp of the first record of the page. -/
def pageBody (r : RecSt) (slots : List Octets) : Octets :=
  let stamp := (slots.headD (List.replicate 16 0)).take 7
  let head : Octets := [BitVec.ofNat 8 ((stamp.headD 0).toNat % 16)] ++ slice stamp 1 4
    ++ be 2 (field stamp 5 2 % 4096) ++ be 5 r.openSeq.toNat ++ be 3 r.openPos ++ [0x01]
  (head ++ slots.flatten ++ List.replicate 4064 0xFF).take 4064

/-- How often a block has been erased. -/
def RecSt.erased (r : RecSt) (blk : Nat) : Nat := cellGet 0 r.erases blk

/-- EMAX: the highest erase count of a usable block (R418). -/
def RecSt.emax (r : RecSt) : Nat :=
  (r.erases.filter fun c => c.1 < r.usable).foldl (fun a c => max a c.2) 0

/-- Erase the block ahead when the writing reaches a new block (R405): its pages cease to exist. True when pages were
overwritten. -/
def eraseAhead (r : RecSt) : RecSt × Bool :=
  let pos := r.openPos
  if pos % 64 ≠ 0 then (r, false)
  else
    let blk := (pos / 64 + 1) % r.usable
    let gone := countIf r.pages fun c => c.1 / 64 = blk
    if gone = 0 then (r, false)
    else
      let k := r.erased blk + 1
      ({ r with pages := cellErase r.pages (64 * blk) (64 * blk + 64), erases := cellSet 0 r.erases blk k,
                oldest := r.oldest + BitVec.ofNat 36 gone, oldPos := (r.oldPos + gone) % (64 * r.usable) }, true)

/-- Program the open page as it stands (R406, R407, R412). -/
def programOpen (s : State) : State :=
  let ea := eraseAhead s.rcd
  let r := ea.1
  let o := openPage r
  let body := pageBody r o.1
  let c := sha256 (r.chain ++ body)
  let pos := r.openPos
  let r1 : RecSt := { r with
    queue := o.2, pages := cellSet blankPage r.pages pos (body ++ c), newest := some r.openSeq, newPos := pos,
    oldest := if r.newest.isNone then r.openSeq else r.oldest, oldPos := if r.newest.isNone then pos else r.oldPos,
    chain := c, lastProg := s.now }
  let s1 := fireIf { s with rcd := r1 } ea.2 140
  if r1.dropNow = 0 then s1
  else
    let s2 := recSystem s1 7 (be 3 r1.dropNow)
    { s2 with rcd := { s2.rcd with dropNow := 0 } }

/-- The open page can take no further record. -/
def pageFull (r : RecSt) : Bool :=
  let o := openPage r
  o.1.length = 253 || !o.2.isEmpty

/-- A block that fails is retired and replaced by a block not erased since new, or U falls by one (R417). -/
def retireBlock (s : State) : State :=
  let r := s.rcd
  let blk := r.openPos / 64
  let r1 : RecSt := if r.reserve = 0 then { r with retired := r.retired + 1, usable := r.usable - 1 }
    else { r with retired := r.retired + 1, reserve := r.reserve - 1, erases := cellSet 0 r.erases blk 0 }
  fire (recSystem { s with rcd := r1 } 8 (be 2 blk)) 138 0 (BitVec.ofNat 32 blk)

/-- PAGE_PROGRAM: a full page, or the open page while a flush runs, is programmed; a failure retires the block. -/
def execPageProgram (ok : Bool) (s : State) : Host.Outcome State Fault Refusal :=
  if s.a.inReset || !(pageFull s.rcd || (s.rcd.flush && !s.rcd.queue.isEmpty)) then .next s
  else if ok then .next (programOpen s) else .next (retireBlock s)

/-- TIDE_CHECKPOINT: 65,536 tides without a page program (R413). -/
def execTideCheckpoint (s : State) : Host.Outcome State Fault Refusal :=
  if s.a.inReset || tideGap s.now s.rcd.lastProg < 65536 then .next s
  else .next (programOpen (recSystem s 9 []))

/-- The chain value of a page holds against its predecessor (R407). -/
def chainHolds (r : RecSt) (pos : Nat) : Bool :=
  let ring := 64 * r.usable
  let page := cellGet blankPage r.pages pos
  let prev := cellGet blankPage r.pages ((pos + ring - 1) % ring)
  page = blankPage || prev = blankPage || pos = r.oldPos
    || sha256 (prev.drop 4064 ++ page.take 4064) = page.drop 4064

/-- A page may be read again: the mirroring or guard phase, 16 tides after the last one (R407). -/
def chainDue (s : State) : Bool :=
  (s.tide.ph = 3 || s.tide.ph = 5) && s.rcd.checkAt.all fun t => decide (16 ≤ tideGap s.now t)

/-- CHAIN_CHECK: in the mirroring and guard phases one page is read again every 16 tides (R60, R407). -/
def execChainCheck (s : State) : Host.Outcome State Fault Refusal :=
  if s.a.inReset || !chainDue s then .next s
  else
    let pos := s.rcd.checkPos
    let s1 : State := { s with rcd := { s.rcd with
      checkPos := (pos + 1) % (64 * s.rcd.usable), checkAt := some s.now } }
    .next (if chainHolds s.rcd pos then s1 else fire s1 139 0 (BitVec.ofNat 32 pos))

/-- Start a flush (R414). -/
def startFlush (s : State) (op : Byte) : State :=
  { s with rcd := { s.rcd with flush := true, flushOp := op } }

/-- Program pages until nothing is queued. -/
def drain : Nat → State → State
  | 0, s => s
  | n + 1, s => if s.rcd.queue.isEmpty then s else drain n (programOpen s)

/-- FLUSH_COMPLETE: every queued record is written, and then the SYSTEM record of the flush (R414). -/
def execFlushComplete (s : State) : Host.Outcome State Fault Refusal :=
  if s.a.inReset || !s.rcd.flush then .next s
  else
    let s1 := drain 64 s
    let s2 := drain 64 (recSystem s1 s1.rcd.flushOp.toNat [])
    .next { s2 with rcd := { s2.rcd with flush := false } }

/-- RECORD_DROP: a POINT record meets the queue (R411, R415). -/
def execRecordDrop (p new old : Word) (s : State) : Host.Outcome State Fault Refusal :=
  if s.a.inReset then .next s else .next (recPoint s p.toNat new old)

/-- Return a word on the bus. -/
def busRead (s : State) (w : Word) : State := { s with core := { s.core with busData := w, busErr := false } }

/-- The low and high word of a tide-wide number. -/
def lowW (t : Tide) : Word := t.setWidth 18
def highW (t : Tide) : Word := (t >>> 18).setWidth 18

/-- REC_PAGE_READ: a read of NEW_L or OLD_L latches the high word (R418). -/
def execRecPageRead (oldest : Bool) (s : State) : Host.Outcome State Fault Refusal :=
  if oldest then
    .next (busRead { s with rcd := { s.rcd with latchOld := highW s.rcd.oldest } } (lowW s.rcd.oldest))
  else
    let k := s.rcd.newest.getD 0
    .next (busRead { s with rcd := { s.rcd with latchNew := highW k } } (lowW k))

/-- A page as the readout gives it (R419). -/
def pageAt (r : RecSt) (pos : Nat) : Octets :=
  if pos = r.openPos && !r.queue.isEmpty then pageBody r (openPage r).1 ++ List.replicate 32 0xFF
  else cellGet blankPage r.pages pos

/-- The last used slot of a page. -/
def lastSlot (page : Octets) : Option Octets :=
  let slots := (List.range 254).map fun i => slice page (16 * i) 16
  (slots.filter fun x => x.headD 0xFF ≠ 0xFF).getLast?

/-- The tide number in a record. -/
def slotTide (x : Octets) : Tide := BitVec.ofNat 36 (field x 0 1 % 16 * 2 ^ 32 + field x 1 4)

/-- N of R46: the latest tide number held in the recorder, or 0. -/
def recordedTide (s : State) : Tide :=
  match s.rcd.newest with
  | none => 0
  | some _ => ((lastSlot (cellGet blankPage s.rcd.pages s.rcd.newPos)).map slotTide).getD 0

/-- The newest page ends in a SYSTEM record of op 2 or 3 (R414). -/
def flushedCleanly (s : State) : Bool :=
  match s.rcd.newest with
  | none => true
  | some _ =>
    match lastSlot (cellGet blankPage s.rcd.pages s.rcd.newPos) with
    | some x => field x 0 1 / 16 = 7 && (field x 7 1 = 2 || field x 7 1 = 3)
    | none => true

/-- REC.STAT (R418). -/
def recStat (r : RecSt) : Word :=
  BitVec.ofNat 18 (b2n (!r.queue.isEmpty) * 2 ^ 17 + b2n r.flush * 2 ^ 16 + b2n r.flinc * 2 ^ 15 + r.qfill)

end Sys2Proof.Machine
end

