-- ==== Sys2Proof/Machine/Power.lean ====
section
/-!
DEFINITION. Feeds and power stages, hold-up, the reset contact, and the hold and release of the dies (R381 to R391, R403,
R404).
-/

namespace Sys2Proof.Machine

/-! ## Stages -/

/-- The state code of a stage. -/
def PwsSt.stage (p : PwsSt) (d : Die) : Nat :=
  match d with
  | .A => p.sa.toNat
  | .B => p.sb.toNat

/-- The feed of a stage is in range. -/
def PwsSt.feedOk (p : PwsSt) (d : Die) : Bool :=
  match d with
  | .A => p.fokA
  | .B => p.fokB

/-- Put a stage into a state. -/
def PwsSt.setStage (p : PwsSt) (d : Die) (c : BitVec 3) : PwsSt :=
  match d with
  | .A => { p with sa := c }
  | .B => { p with sb := c }

/-- Change the PWS state. -/
def State.modPws (s : State) (f : PwsSt → PwsSt) : State := { s with pws := f s.pws }

/-- A stage is in Active or Standby with its feed in range (R387). -/
def PwsSt.working (p : PwsSt) (d : Die) : Bool := p.feedOk d && (p.stage d = 3 || p.stage d = 4)

/-- A stage is Active. -/
def PwsSt.active (p : PwsSt) (d : Die) : Bool := p.stage d = 4

/-- Hold-up is decided (R387): source 136, supplies and feeds off, the standby test stops, the recorder flushes. -/
def decideHoldup (s : State) : State :=
  let s1 := s.modPws fun p => { p with hold := true, seqEnded := false, stbt := false }
  let s2 := s1.modLio fun l => { l with tpgAct := 0, lit := false, sens := false, pulse := none }
  let s3 := fire1 s2 136
  if s3.a.inReset then s3 else startFlush s3 2

/-- Hold-up begins when a working stage has just been the last one (R387). -/
def checkHoldup (before s : State) : State :=
  let had := before.pws.working .A || before.pws.working .B
  let has := s.pws.working .A || s.pws.working .B
  if had && !has && !s.pws.hold then decideHoldup s else s

/-- The Standby stage takes the load when the Active stage `d` has left (R383): source 134, then the settling of R328. A
standby test that ran ends without a result. -/
def takeOver (s : State) (d : Die) : State :=
  if s.pws.stage (Die.other d) = 3 then
    let s1 := s.modPws fun p => { p.setStage (Die.other d) 4 with stbt := false, takeoverAt := some s.now }
    let s2 := fire1 s1 134
    { s2 with settle := (s2.settle.filter fun x => x.1 ≠ .pws d) ++ [(.pws d, tideAdd s2.now (Config.settleTides (.pws d)))] }
  else s

/-- FEED_OUT_OF_RANGE (R381): the source of the feed, no output, a take-over or hold-up. -/
def execFeedOutOfRange (side : Die) (s : State) : Host.Outcome State Fault Refusal :=
  if !s.pws.feedOk side then .next s
  else
    let was := s.pws.stage side
    let t : Option Tide := if s.tide.running then some s.now else none
    let s1 := s.modPws fun p =>
      let p := match side with
        | .A => { p with fokA := false, outA := t }
        | .B => { p with fokB := false, outB := t }
      if was = 5 then p else p.setStage side 0
    let s2 := s1.modPws fun p => if p.stbt && p.tStg = (side == .B) then { p with stbt := false, tRes := 2, tAge := 0, tMs := 0 } else p
    let s3 := fire1 s2 (match side with
      | .A => 130
      | .B => 131)
    let s4 := if was = 4 then takeOver s3 side else s3
    .next (checkHoldup s s4)

/-- FEED_IN_RANGE (R385): a stage in Off soft-starts; a Failed one does after 2 s without its feed. -/
def execFeedInRange (side : Die) (dc : Bool) (s : State) : Host.Outcome State Fault Refusal :=
  if s.pws.feedOk side then .next s
  else
    let gone := match side with
      | .A => s.pws.outA
      | .B => s.pws.outB
    let long := !s.tide.running || gone.all fun t => reached s.now (tideAdd t (s.tides 2000))
    .next (s.modPws fun p =>
      let p := match side with
        | .A => { p with fokA := true, dcA := dc }
        | .B => { p with fokB := true, dcB := dc }
      if p.stage side = 0 || (p.stage side = 5 && long) then p.setStage side 1 else p)

/-- STAGE_SOFT_START_DONE. -/
def execStageSoftStartDone (side : Die) (s : State) : Host.Outcome State Fault Refusal :=
  if s.pws.stage side = 1 then .next (s.modPws fun p => p.setStage side 2) else .next s

/-- The source of a failed stage. -/
def stageSource : Die → Nat
  | .A => 132
  | .B => 133

/-- STAGE_SELF_CHECK_DONE: Active when no other stage is, otherwise Standby (R382, R385). -/
def execStageSelfCheckDone (side : Die) (ok : Bool) (s : State) : Host.Outcome State Fault Refusal :=
  if s.pws.stage side ≠ 2 then .next s
  else if ok then
    .next (s.modPws fun p => p.setStage side (if p.active (Die.other side) then 3 else 4))
  else .next (fire1 (s.modPws fun p => p.setStage side 5) (stageSource side))

/-- STAGE_FAILURE (R384): the stage switches off, or the last one carries on for a finding other than over voltage, its source
raised at Alert. -/
def execStageFailure (side : Die) (overVolt : Bool) (s : State) : Host.Outcome State Fault Refusal :=
  let was := s.pws.stage side
  if was < 2 || was = 5 then .next s
  else
    let alone := was = 4 && !(s.pws.stage (Die.other side) = 3 || s.pws.stage (Die.other side) = 4)
    if alone && !overVolt then .next (evSetAt s (stageSource side) 0 0 false 1)
    else
      let s1 := s.modPws fun p => if p.stbt && p.tStg = (side == .B) then { p with stbt := false, tRes := 2, tAge := 0, tMs := 0 } else p
      let s2 := fire1 (s1.modPws fun p => p.setStage side 5) (stageSource side)
      let s3 := if was = 4 then takeOver s2 side else s2
      .next (checkHoldup s s3)

/-- A retry of a Failed stage whose feed is in range: it proceeds as from Off (R385). -/
def stageRetry (s : State) (side : Die) : State :=
  if s.pws.stage side = 5 && s.pws.feedOk side then s.modPws fun p => p.setStage side 1 else s

/-! ## The standby test (R386) -/

/-- The stage in Standby. -/
def PwsSt.standby (p : PwsSt) : Option Die :=
  if p.stage .A = 3 then some .A else if p.stage .B = 3 then some .B else none

/-- The test is skipped: a feed out of range, a stage in Soft-start or Self-check, hold-up, or a take-over within 60 s. -/
def testSkips (s : State) : Bool :=
  let p := s.pws
  let busy (d : Die) : Bool := p.stage d = 1 || p.stage d = 2
  !p.fokA || !p.fokB || busy .A || busy .B || p.hold
    || p.takeoverAt.any fun t => s.tide.running && later (tideAdd t (s.tides 60000)) s.now

/-- STANDBY_TEST_START. -/
def execStandbyTestStart (s : State) : Host.Outcome State Fault Refusal :=
  if s.pws.stbt then .next s
  else if testSkips s then
    .next (s.modPws fun p => { p with testReq := false, tRes := 3, tAge := 0, tMs := 0 })
  else match s.pws.standby with
    | some d => .next (s.modPws fun p => { p with stbt := true, testReq := false, tStg := d == .B })
    | none => .next (s.modPws fun p => { p with testReq := false })

/-- STANDBY_TEST_END: pass, or the stage fails and source 135 fires. -/
def execStandbyTestEnd (ok : Bool) (s : State) : Host.Outcome State Fault Refusal :=
  if !s.pws.stbt then .next s
  else
    let d : Die := if s.pws.tStg then .B else .A
    let s1 := s.modPws fun p => { p with stbt := false, tRes := if ok then 1 else 2, tAge := 0, tMs := 0 }
    if ok then .next s1 else .next (fire1 (s1.modPws fun p => p.setStage d 5) 135)

/-- A write of TEST (R403). -/
def testRequest (s : State) : State := s.modPws fun p => { p with testReq := true }

/-- PWS_CMD_TEST. -/
def execPwsCmdTest (s : State) : Host.Outcome State Fault Refusal := .next (testRequest s)

/-- A write of RETRYA and RETRYB (R403). -/
def retryWrite (s : State) (a b : Bool) : State :=
  let s1 := if a then stageRetry s .A else s
  if b then stageRetry s1 .B else s1

/-- PWS_CMD_RETRY. -/
def execPwsCmdRetry (a b : Bool) (s : State) : Host.Outcome State Fault Refusal := .next (retryWrite s a b)

/-! ## Hold and release of the dies -/

/-- What the recorder keeps without power: the store with its ring positions (R405 to R417). -/
def RecSt.kept (r : RecSt) : RecSt :=
  { pages := r.pages, newest := r.newest, newPos := r.newPos, oldest := r.oldest, oldPos := r.oldPos,
    usable := r.usable, reserve := r.reserve, retired := r.retired, erases := r.erases, checkPos := r.checkPos,
    chain := r.chain, lastProg := r.lastProg }

/-- Both dies in reset (R387, R389, R390): every register at its reset value (R13); the stores, the fuses, the power-stage
controller and the Bell relays stay. -/
def holdDies (s0 : State) : State :=
  let s := burnCut s0
  { pending := s.pending, tx := s.tx, draws := s.draws, norA := s.norA, norB := s.norB, rcd := s.rcd.kept,
    fus := { a := s.fus.a.unsensed, b := s.fus.b.unsensed },
    pws := { s.pws with released := false }, bells := { s.bells with edgesA := 0, edgesB := 0, edgeA := false, edgeB := false } }

/-- The dies leave reset and the module starts in Fuse read (R391, R392); a die whose island supervisor holds it stays
(R26). -/
def releaseDies (s : State) (cause : Byte) : State :=
  let s1 := holdDies s
  { s1 with
    mode := if s.pws.railA then .off else .fuseRead,
    a := { s1.a with inReset := s.pws.railA }, b := { s1.b with inReset := s.pws.railB },
    pws := { s1.pws with
      cause := cause, nextCause := 1, hold := false, seqEnded := false, rstHeld := false, released := true } }

/-- HOLDUP_CUTOFF: the dies are held in reset at flush completion, or at 30 ms (R387). -/
def execHoldupCutoff (s : State) : Host.Outcome State Fault Refusal :=
  if s.pws.hold && !s.pws.seqEnded then
    .next ((holdDies s).modPws fun p => { p with seqEnded := true, nextCause := 3 })
  else .next s

/-- DIE_RELEASE: after a hold-up sequence, with a stage Active (R388). -/
def execDieRelease (s : State) : Host.Outcome State Fault Refusal :=
  if s.pws.hold && s.pws.seqEnded && (s.pws.active .A || s.pws.active .B) && !s.pws.rstHeld then
    .next (releaseDies s 3)
  else .next s

/-- POWER_UP: the dies of a module that is Off are released, unless hold-up or the reset contact holds them (R392). -/
def execPowerUp (s : State) : Host.Outcome State Fault Refusal :=
  if s.mode = .off && !s.pws.released && !s.pws.hold && !s.pws.rstHeld then .next (releaseDies s s.pws.nextCause) else .next s

/-! ## The reset contact (R389, R391, R425) -/

/-- How RST_N reads at a loop resistance: closed below 100 Ω, open above 10 kΩ, not defined between (log 10). -/
def rstReading (s : State) (ohms : Nat) : State × Bool :=
  if ohms < 100 then (s, true)
  else if 10000 < ohms then (s, false)
  else ({ s with draws := s.draws + 1 }, Config.rstReads s.draws)

/-- RST_N_CLOSE. -/
def execRstNClose (ohms : Nat) (s : State) : Host.Outcome State Fault Refusal :=
  let x := rstReading s ohms
  .next (if x.2 then x.1.modPws fun p => { p with rstClosed := true } else x.1)

/-- RST_PEND: 2 ms closed. -/
def execRstPend (s : State) : Host.Outcome State Fault Refusal :=
  if !s.pws.rstClosed || s.pws.rstPend then .next s
  else
    let s1 := s.modPws fun p => { p with rstPend := true }
    .next (if s1.a.inReset then s1 else startFlush s1 3)

/-- RST_HOLD: 30 ms closed. -/
def execRstHold (s : State) : Host.Outcome State Fault Refusal :=
  if s.pws.rstClosed && s.pws.rstPend && !s.pws.rstHeld then
    .next ((holdDies s).modPws fun p => { p with rstHeld := true, longNow := false, nextCause := 2 })
  else .next s

/-- RST_LONG: more than 10 s closed. -/
def execRstLong (s : State) : Host.Outcome State Fault Refusal :=
  if s.pws.rstHeld && !s.pws.longNow then
    .next (s.modPws fun p => { p with longNow := true, longHolds := sat16 p.longHolds })
  else .next s

/-- RST_N_OPEN: `tenths` is the length of the hold in 0.1 s. The dies are released when a stage carries the load. -/
def execRstNOpen (ohms : Nat) (tenths : Word) (s : State) : Host.Outcome State Fault Refusal :=
  let x := rstReading s ohms
  if x.2 || !x.1.pws.rstClosed then .next x.1
  else
    let s1 := x.1.modPws fun p => { p with rstClosed := false, rstPend := false }
    if !s1.pws.rstHeld then .next s1
    else
      let s2 := s1.modPws fun p => { p with
        rstHeld := false, rsth := tenths, longReport := p.longReport || p.longNow, longNow := false }
      if !s2.pws.hold && (s2.pws.active .A || s2.pws.active .B) then .next (releaseDies s2 2) else .next s2

/-! ## Registers (R403) -/

/-- PWS.STAT. -/
def pwsStat (p : PwsSt) : Word :=
  BitVec.ofNat 18 (p.sa.toNat * 32768 + p.sb.toNat * 4096 + b2n p.fokA * 2048 + b2n p.fokB * 1024 + b2n p.dcA * 512
    + b2n p.dcB * 256 + b2n p.hold * 128 + b2n p.stbt * 64 + b2n p.rstPend * 32)

/-- PWS.STBT. -/
def pwsStbt (p : PwsSt) : Word := BitVec.ofNat 18 (p.tRes.toNat * 65536 + b2n p.tStg * 32768 + p.tAge.toNat)

/-- The controller measures feeds, currents and bus: what it finds is the outside world's, a free value (log 27). -/
def pwsMeasure (s : State) : State :=
  let k := s.draws
  { s.modPws fun p => { p with
      vfa := Config.measured k, vfb := Config.measured (k + 1), ia := Config.measured (k + 2),
      ib := Config.measured (k + 3), vbus := Config.measured (k + 4) } with draws := k + 5 }

/-- A read at an offset of the PWS window. -/
def pwsRegRead (s : State) (off : Nat) : State × Word :=
  let m := pwsMeasure s
  match off with
  | 0 => (s, pwsStat s.pws)
  | 1 => (m, m.pws.vfa)
  | 2 => (m, m.pws.vfb)
  | 3 => (m, m.pws.ia)
  | 4 => (m, m.pws.ib)
  | 5 => (m, m.pws.vbus)
  | 6 => (s, pwsStbt s.pws)
  | 7 => (s, s.pws.rsth)
  | _ => (s, 0)

/-- A write at an offset of the PWS window. -/
def pwsRegWrite (s : State) (off : Nat) (v : Word) : State :=
  if off = 8 then
    let s1 := if v.getLsbD 2 then testRequest s else s
    retryWrite s1 (v.getLsbD 0) (v.getLsbD 1)
  else s

/-- A tide of the standby test's age, in seconds, saturating at 0o77777 (R403). -/
def ageTide (s : State) : State :=
  s.modPws fun p =>
    if p.tRes = 0 then p
    else
      let ms := p.tMs + s.per
      if ms < 1000 then { p with tMs := ms }
      else { p with tMs := ms - 1000, tAge := if p.tAge.toNat = 32767 then p.tAge else p.tAge + 1 }

end Sys2Proof.Machine
end

