-- ==== Sys2Proof/Machine/Staging.lean ====
section
/-!
DEFINITION. Staging, verification, equivalence proof and commit of a Manifest, and its load and background check (R100 to
R116, R171 to R179, R256).
-/

namespace Sys2Proof.Machine

/-- Change the Manifest state. -/
def State.modMan (s : State) (f : ManSt → ManSt) : State := { s with man := f s.man }

/-- Change EVA's registers. -/
def State.modEva (s : State) (f : EvaBlk → EvaBlk) : State := { s with eva := f s.eva }

/-! ## NOR -/

/-- Programming only clears bits (R110). -/
def norProgram (nor : List Host.Cell) (a : Nat) (os : Octets) : List Host.Cell :=
  (os.zip (List.range os.length)).foldl (fun n x => cellSet 0xFF n (a + x.2) (norGet n (a + x.2) &&& x.1)) nor

/-- Erase a slot of 48 MiB (R28). -/
def norEraseSlot (nor : List Host.Cell) (slot : Nat) : List Host.Cell :=
  cellErase nor (slotBase slot) (slotBase slot + 0x3000000)

/-- Octets of a NOR device. -/
def norOctets (nor : List Host.Cell) (a n : Nat) : Octets := cellGetN 0xFF nor a n

/-- The inactive slot (R106). -/
def inactiveSlot (s : State) : Nat := if s.man.slot = 0 then 1 else 0

/-- Words as codewords of three octets (R90). -/
def codeOctets (ws : List Word) : Octets := ws.flatMap fun w => be 3 (eccEncode w).toNat

/-- Words of a U36 (R10). -/
def words36 (v : Nat) : List Word := [BitVec.ofNat 18 v, BitVec.ofNat 18 (v / 2 ^ 18)]

/-- A digest as 16 words (R91). -/
def digestWords (d : Octets) : List Word := (List.range 16).map fun j => BitVec.ofNat 18 (field d (2 * j) 2)

/-- The 22 words of a commit record (R100). -/
def commitWords (seq : Nat) (t : Tide) (dig : Octets) : List Word :=
  [0o432100] ++ words36 seq ++ words36 t.toNat ++ digestWords dig ++ [0]

/-- The offsets of a slot's commit records (R92). -/
def commitOffsets (slot : Nat) : List Nat := [slotBase slot + 0x2F40000, slotBase slot + 0x2F80000]

/-- Write both commit records of a slot. -/
def writeCommits (nor : List Host.Cell) (slot seq : Nat) (t : Tide) (dig : Octets) : List Host.Cell :=
  (commitOffsets slot).foldl (fun n a => norProgram n a (codeOctets (commitWords seq t dig))) nor

/-- MARK of both commit records programmed to 0 (R110). -/
def clearCommits (nor : List Host.Cell) (slot : Nat) : List Host.Cell :=
  (commitOffsets slot).foldl (fun n a => norProgram n a [0, 0, 0]) nor

/-- The highest SEQ of any readable commit record of a device (R110). -/
def highestSeq (nor : List Host.Cell) : Nat :=
  (commitRecs nor 0 ++ commitRecs nor 1).foldl (fun a r => max a r.seq) 0

/-! ## Stage commands (R106) -/

/-- Both dies erase the inactive slot; the stage then takes the state `next`. -/
def stageErase (s : State) (next : BitVec 4) : State :=
  let slot := inactiveSlot s
  { s.modMan fun m => { m with stage := 7, afterErase := next, proof := none, staged := none, stagedB := none } with
    norA := norEraseSlot s.norA slot, norB := norEraseSlot s.norB slot }

/-- A command written to MANIFEST_STAGE: the new state, or none where the table refuses it. -/
def stageCommand (s : State) (cmd : Nat) : Option State :=
  let st := s.man.stage.toNat
  if cmd = 1 ∧ st = 0 then some (stageErase s 1)
  else if cmd = 2 ∧ st = 1 then some (s.modMan fun m => { m with stage := 2 })
  else if cmd = 3 ∧ (st = 1 ∨ st = 4 ∨ st = 5) then some (stageErase s 0)
  else none

/-- The stage is refused: the reason read is the lowest, and the recorder receives every reason with the staged digest, in
ascending order (R107). -/
def stageRefuse (s : State) (reasons : List Nat) (dig : Octets) : State :=
  (sortBy (fun x y => decide (x ≤ y)) reasons.dedup).foldl
    (fun t r => recManifest t 1 r s.man.seq.toNat (inactiveSlot s) dig)
    (s.modMan fun m => { m with stage := 5, stageReason := BitVec.ofNat 9 (lowest reasons), proof := none })

/-- NOR_ERASE_DONE: both erasures have ended, or one has failed (reason 0o021). -/
def execNorEraseDone (ok : Bool) (s : State) : Host.Outcome State Fault Refusal :=
  if s.man.stage ≠ 7 then .next s
  else if !ok then .next (stageRefuse s [0o021] s.man.stageDig)
  else .next (s.modMan fun m => { m with
    stage := m.afterErase, stageReason := 0, stageDig := List.replicate 32 0, touch := 0 })

/-- The data octets of a MANIFEST_DATA request in what the B-die's tap keeps of its frames: those after the header and the
request's 12 octets, for 64 tides after the frames came (R106, R276, R281). -/
def tapData (s : State) (t : Option Tap) : Option Octets :=
  (t.filter fun t => s.runs .B && decide (tideGap s.now t.since ≤ 64)).map fun t => slice t.octets 20 1024

/-- What programming data leaves of it where some bits of the array do not clear. -/
def withStuck (data stuck : Octets) : Octets := (List.range data.length).map fun j => data.getD j 0 ||| stuck.getD j 0

/-- MANIFEST_DATA at index k (R106): the A-die stores the data, the B-die what its tap keeps. Answers the status; a mismatch on
read-back refuses the stage and answers 0x00 (log 80). -/
def stageData (s : State) (k : Nat) (data : Octets) (path : Nat) (frames : Option Tap)
    (stuckA stuckB : Octets) (readBack : Bool) : Nat × State :=
  let tap := (tapData s frames).getD []
  if s.man.stage ≠ 1 || path = 3 || tap.length ≠ 1024 || crc32c tap ≠ crc32c data then (8, s)
  else
    let a := slotBase (inactiveSlot s) + 1024 * k
    let na := norProgram s.norA a (withStuck data stuckA)
    let nb := norProgram s.norB a (withStuck tap stuckB)
    let s1 : State := { s with norA := na, norB := nb }
    if readBack && norOctets na a 1024 = data && norOctets nb a 1024 = tap then (0, s1)
    else (0, stageRefuse s1 [0o021] s.man.stageDig)

/-! ## Verification at CLOSE (R107, R108, R113) -/

/-- The module is in state Manifest load. -/
def inLoad (s : State) : Bool := s.mode = .load

/-- A commit may reload the tables whole: the module is Moored, in Bench or in Manifest load (R109, R113). -/
def wholeMay (s : State) : Bool := inLoad s || moduleMoored s

/-- The reasons a die finds in the staged slot. Of a damaged digest copy beside a good one both 0o001 and 0o002 are the
checks that fail: the computed digest does not equal both copies, and the copies are not both usable and equal (log 80). -/
def stageReasons (s : State) (c : Check) : List Nat :=
  c.reasons ++ (if c.corrupt then [0o001, 0o002] else []) ++
  match c.net with
  | none => []
  | some n =>
    if inLoad s then []
    else
      let t := touched s.netA n
      (if n.period ≠ s.per then [0o004] else [])
        ++ (if n.map ≠ t || n.netchg ≠ decide (s.netA.sec1 ≠ n.sec1) then [0o015] else [])
        ++ (if n.pred ≠ s.man.active then [0o016] else [])
        ++ (if 131072 < delta n t && !wholeMay s then [0o023] else [])

/-! ## The net stimulus (R172 to R174) -/

/-- One draw of a bit. -/
def lfsrBit (x : BitVec 32) : Bool × BitVec 32 :=
  let b := (x.getLsbD 31 != x.getLsbD 21) != (x.getLsbD 1 != x.getLsbD 0)
  (b, (x <<< 1) ||| (if b then 1 else 0))

/-- A draw of k bits, the first the most significant. -/
def lfsrDraw : Nat → Nat → BitVec 32 → Nat × BitVec 32
  | 0, acc, x => (acc, x)
  | k + 1, acc, x => let r := lfsrBit x; lfsrDraw k (2 * acc + b2n r.1) r.2

/-- The seed of a digest. -/
def lfsrSeed (dig : Octets) : BitVec 32 :=
  let x := BitVec.ofNat 32 (field dig 4 4)
  if x = 0 then 1 else x

/-- The comparison bounds of an occurrence (R173). -/
def boundsOf (i : Inst) : List Int :=
  let p (k : Nat) : Int := Int.ofNat (i.par k)
  match i.op.toNat with
  | 0o045 => [p 0, p 1, p 0 - p 2, p 1 + p 2]
  | 0o050 => [p 0, p 1, p 2]
  | 0o051 => [p 0, p 1, p 2, p 3]
  | 0o052 => [p 0, p 1, p 2]
  | _ => []

/-- The boundary list of an analogue point. -/
def boundaryList (n : Net) (p : Nat) : List Nat :=
  (((n.insts.filter fun i => i.ins.any fun w => w.toNat = p).flatMap boundsOf).flatMap fun b =>
    [b - 1, b, b + 1].map fun x => min (x.toNat) 0o7777).take 64

/-- The points a slice reads and does not drive, in index order. -/
def stimPoints (n : Net) (idxs : List Nat) : List Nat :=
  let is := idxs.map n.inst
  let driven (p : Nat) : Bool := is.any fun i => i.outs.any fun w => w.toNat = p
  sortBy (fun x y => decide (x ≤ y)) (((is.flatMap fun i => i.ins.map (·.toNat)).dedup).filter fun p => !driven p)

/-- A new value of a stimulated point. -/
def stimValue (n : Net) (p : Nat) (x : BitVec 32) : Word × BitVec 32 :=
  let d := n.decl p
  let r := lfsrDraw 4 0 x
  if r.1 = 0 then (BitVec.ofNat 18 (0o400000 + d.safe), r.2)
  else if d.ana then
    let o := lfsrDraw 1 0 r.2
    let bl := boundaryList n p
    if o.1 = 1 ∧ bl ≠ [] then
      let k := lfsrDraw 6 0 o.2
      (BitVec.ofNat 18 (bl.getD (k.1 % bl.length) 0), k.2)
    else
      let v := lfsrDraw 12 0 o.2
      (BitVec.ofNat 18 v.1, v.2)
  else
    let v := lfsrDraw 1 0 r.2
    (BitVec.ofNat 18 v.1, v.2)

/-- The stimulus of a step: generator and values of the stimulated points. -/
def stimStep (n : Net) (step : Nat) (pts : List (Nat × Word)) (x : BitVec 32) : List (Nat × Word) × BitVec 32 :=
  pts.foldl (fun (acc : List (Nat × Word) × BitVec 32) q =>
    let r := lfsrDraw 3 0 acc.2
    if step = 0 ∨ r.1 = 0 then
      let v := stimValue n q.1 r.2
      (acc.1 ++ [(q.1, v.1)], v.2)
    else (acc.1 ++ [q], r.2)) ([], x)

/-- What one channel holds in proof storage: the words of the step before, the states. -/
structure ProofCh where
  words : List (Nat × Word)
  inst : List IState
  deriving DecidableEq, Repr

/-- One step of one channel over a slice: its new storage and the step signature. -/
def proofChannel (n : Net) (per : Nat) (idxs : List Nat) (step : Nat) (pts : List (Nat × Word)) (c : ProofCh) :
    ProofCh × BitVec 32 :=
  let bank0 := bankAll c.words pts
  let run := idxs.foldl (fun (acc : List (Nat × Word) × List IState × Octets) k =>
    let i := n.inst k
    let ws := i.ins.map fun p =>
      let old := match n.driver p.toNat with
        | some j => idxs.contains j && decide (n.levelOf k ≤ n.levelOf j)
        | none => false
      bankGet (if old then c.words else acc.1) p.toNat
    let r := evalInst n per (BitVec.ofNat 36 step) false i ws (acc.2.1.getD k .none)
    (bankAll acc.1 ((i.outs.map (·.toNat)).zip r.outs), listMod acc.2.1 k fun _ => r.st,
      acc.2.2 ++ wordsOct r.outs ++ be 3 (instView i r.st).toNat)) (bank0, c.inst, [])
  ({ words := run.1, inst := run.2.1 }, crc32c (be 2 step ++ run.2.2))

/-- The start of a proof over slice `slice` (R121, R173): initial states, reset words. -/
def sliceStart (nA : Net) (bs : List Batch) (nB : Net) (slices : List (List Nat)) (slice : Nat) : ProofSt :=
  let idxs := slices.headD []
  { netA := nA, batches := bs, netB := nB, idxs := idxs, rest := slices.drop 1, step := 0, lfsr := lfsrSeed nA.digest,
    pts := (stimPoints nA idxs).map fun p => (p, BitVec.ofNat 18 (0o600000 + (nA.decl p).safe)),
    instA := nA.insts.map initState, instB := nB.insts.map initState,
    wordsA := resetWords nA, wordsB := resetWords nB, slice := slice, inTide := 0, ran := 0, sent := [] }

/-- The start of a proof: Channel A translates its net, Channel B takes its own (R171, R176). -/
def proofStart (nA nB : Net) (slices : List (List Nat)) : ProofSt :=
  let bs := batchesOf nA
  sliceStart (nA.translated bs) bs nB slices 0

/-- One step of the net stimulus on both channels (R173, R174): their step signatures wait to be compared. -/
def proofStep (per : Nat) (p : ProofSt) : ProofSt :=
  if 4096 ≤ p.step then p
  else
    let st := stimStep p.netA p.step p.pts p.lfsr
    let a := proofChannel p.netA per p.idxs p.step st.1 { words := p.wordsA, inst := p.instA }
    let b := proofChannel p.netB per p.idxs p.step st.1 { words := p.wordsB, inst := p.instB }
    { p with step := p.step + 1, lfsr := st.2, pts := st.1, wordsA := a.1.words, wordsB := b.1.words,
             instA := a.1.inst, instB := b.1.inst, sent := p.sent ++ [(p.step, a.2, b.2)] }

/-- k steps. -/
def proofSteps (per : Nat) : Nat → ProofSt → ProofSt
  | 0, p => p
  | k + 1, p => proofSteps per k (proofStep per p)

/-- The parts of R171. -/
inductive ProofPart where
  | structural
  | vectors
  | stimulus
  deriving DecidableEq, Repr

/-- What EVA source 31 records of a failed proof (R174): part, slice and step in bits 31:28, 27:16 and 15:0 (log 83). -/
def proofSubject (part : ProofPart) (slice step : Nat) : BitVec 32 :=
  let c := match part with
    | .structural => 1
    | .vectors => 2
    | .stimulus => 3
  BitVec.ofNat 32 (c * 2 ^ 28 + slice % 4096 * 2 ^ 16 + step % 65536)

/-- What the comparison of the waiting step signatures finds. -/
inductive ProofFind where
  | more (p : ProofSt)
  | passed
  | failed (subj : BitVec 32)
  deriving DecidableEq, Repr

/-- The waiting step signatures are compared (R171, R176): after 4,096 equal ones the next slice is taken. -/
def proofCompare (p : ProofSt) : ProofFind :=
  match p.sent.find? fun x => x.2.1 ≠ x.2.2 with
  | some x => .failed (proofSubject .stimulus p.slice x.1)
  | none =>
    if p.step < 4096 then .more { p with sent := [] }
    else match p.rest with
      | [] => .passed
      | _ => .more { sliceStart p.netA p.batches p.netB p.rest (p.slice + 1) with inTide := p.inTide, ran := p.ran }

/-- The structural part (R171): the records rebuilt from Channel A's batches hash to Channel B's table digest. -/
def structuralOk (bs : List Batch) (nB : Net) : Bool := tableDigest (recordsOf bs) = tableDigest nB.insts

/-- The slices of a proof (R176): consecutive occurrences, at most 131,072 record words each. -/
def slicesOf (n : Net) (idxs : List Nat) : List (List Nat) :=
  let r := idxs.foldl (fun (acc : List (List Nat) × List Nat × Nat) k =>
    let w := (n.inst k).words.length
    if acc.2.2 + w ≤ 131072 then (acc.1, acc.2.1 ++ [k], acc.2.2 + w)
    else (acc.1 ++ [acc.2.1], [k], w)) ([], [], 0)
  r.1 ++ [r.2.1]

/-! ## Verification and proof of a stage -/

/-- STAGE_VERIFY_DONE: both dies have checked the staged slot; the proof starts with its first slice. -/
def execStageVerifyDone (s : State) : Host.Outcome State Fault Refusal :=
  if s.man.stage ≠ 2 then .next s
  else
    let slot := inactiveSlot s
    let ca := checkSlot s.norA slot
    let cb := checkSlot s.norB slot
    let ra := stageReasons s ca
    let rb := stageReasons s cb
    let same := lowest ra = lowest rb && ca.digest = cb.digest
    let rs := ra ++ rb ++ (if same then [] else [0o017])
    match ca.net, cb.net with
    | some nA, some nB =>
      if !rs.isEmpty then .next (stageRefuse s rs ca.digest)
      else
        let load := inLoad s
        let t : GSet := if load then BitVec.allOnes 512 else touched s.netA nA
        let big := load || 131072 < delta nA t
        let idxs := (List.range nA.insts.length).filter fun k => big || gHas t (nA.inst k).group
        .next (s.modMan fun m => { m with
          stage := 3, stageDig := ca.digest, touch := t, big := big, fromLoad := load,
          netchg := load || nA.netchg, staged := some nA, stagedB := some nB,
          proof := some (proofStart nA nB (slicesOf nA idxs)) })
    | _, _ => .next (stageRefuse s rs ca.digest)

/-- The proof of a stage fails: EVA source 31, and the stage is refused with reason 0o020 (R107, R174). -/
def proofFail (s : State) (subj : BitVec 32) : State := stageRefuse (fire s 31 0 subj) [0o020] s.man.stageDig

/-- Each die has evaluated the active net, and comparison has not begun (R176). -/
def proofMayRun (s : State) : Bool :=
  s.runs .A && s.runs .B && s.tide.ph = 1 && (!s.a.armed || s.tide.aDone) && (!s.b.armed || s.tide.bDone)

/-- STAGE_PROOF_STEP: each die runs steps of the slice in hand, 16 in a tide at most; one that is not finished before the
comparison phase begins is abandoned and run again (R176). -/
def execStageProofStep (run : ProofRun) (s : State) : Host.Outcome State Fault Refusal :=
  match s.man.proof with
  | none => .next s
  | some p =>
    if s.man.stage ≠ 3 then .next s
    else if !structuralOk p.batches p.netB then .next (proofFail s (proofSubject .structural p.slice p.step))
    else if !run.vectors then .next (proofFail s (proofSubject .vectors p.slice p.step))
    else if !proofMayRun s then .next s
    else
      let ran := if p.inTide = s.now then p.ran else 0
      let k := min run.steps.val (16 - ran)
      .next (s.modMan fun m => { m with proof := some { proofSteps s.per k p with inTide := s.now, ran := ran + k } })

/-- In the mirroring phase the step signatures cross the Gangway and are compared (R176). -/
def proofCross (s : State) : State :=
  match s.man.proof with
  | none => s
  | some p =>
    if s.man.stage ≠ 3 || (p.sent = [] && p.step < 4096) then s
    else match proofCompare p with
      | .more q => s.modMan fun m => { m with proof := some q }
      | .passed => s.modMan fun m => { m with stage := 4, stageReason := 0, batches := p.batches, proof := none }
      | .failed subj => proofFail s subj

/-! ## Commit (R109 to R111, R256) -/

/-- The staged Manifest sets other Hawser line options (R243). -/
def hawserDiffers (s : State) : Bool := ((s.man.staged).map fun n => n.sec7.headD 0) ≠ some (s.netA.sec7.headD 0)

/-- Which statuses refuse a commit write of a digest (R109), beyond the rights. -/
def commitCodes (s : State) (dig : Octets) : List Nat :=
  let m := s.man
  let load := inLoad s
  let pred := ((m.staged).map Net.pred).getD []
  (if m.stage ≠ 4 || dig ≠ m.stageDig || (!load && pred ≠ m.active) then [8] else [])
    ++ (if m.stage = 4 && !wholeMay s && (gList m.touch).any (fun g => !s.groupMoored g) then [7] else [])
    ++ (if m.stage = 4 && !wholeMay s && (m.netchg || m.big || hawserDiffers s) then [6] else [])

/-- Both dies write their commit records (R110). -/
def commitBegin (s : State) (dig : Octets) : State :=
  let slot := inactiveSlot s
  let seq := 1 + max (highestSeq s.norA) (highestSeq s.norB)
  let t := tideAdd s.now (1 + (Config.forecast s.draws).toNat)
  let s1 : State := { s with
    draws := s.draws + 1, norA := writeCommits s.norA slot seq t dig, norB := writeCommits s.norB slot seq t dig }
  recManifest (s1.modMan fun m => { m with
    stage := 6, commitAt := s.now, commitSeq := BitVec.ofNat 36 seq, commitTide := t, confirmed := false,
    forceAt := none, swapDone := false }) 2 0 seq slot dig

/-- The forecast tide of a commit written now. -/
def commitForecast (s : State) : Tide := tideAdd s.now (1 + (Config.forecast s.draws).toNat)

/-- The peer of a Leader holds the Follower role (R256): its last heartbeat says so. -/
def peerFollower (s : State) : Bool := s.twin.role = .leader && s.twin.peer ≠ [] && field s.twin.peer 0 1 % 8 = 2

/-- An accepted commit write: the records are written; a Leader with a Follower sends COP 1 (R256). -/
def commitAccept (s : State) (dig : Octets) : State :=
  let s1 := commitBegin s dig
  let s2 : State := { s1 with dict := { s1.dict with lastCommit := dig } }
  if peerFollower s then { s2 with twin := { s2.twin with cop := 1, cdigest := dig, copLeft := 0 } } else s2

/-- A commit is refused (R110): the new records are invalidated, the stage returns to Ready with reason 0o021; a Leader
that had a Follower sends COP 3 for 4 tides (R256). -/
def commitRefuse (s : State) : State :=
  let slot := inactiveSlot s
  let s1 : State := { s with norA := clearCommits s.norA slot, norB := clearCommits s.norB slot }
  let s2 := s1.modMan fun m => { m with
    stage := 4, stageReason := 0o021, confirmed := false, forceAt := none, swapDone := false }
  let s3 := recManifest s2 4 0o021 s.man.commitSeq.toNat slot s.man.stageDig
  let s4 := s3.modEva fun e => { e with swap := false }
  match s4.twin.role with
  | .leader => if s4.twin.cop = 0 then s4
    else { s4 with twin := { s4.twin with cop := 3, copLeft := if s4.tide.ph.toNat < 3 then 4 else 5, cconf := false, cref := false } }
  | _ => { s4 with twin := { s4.twin with cconf := false } }

/-- The confirmations a commit still needs have arrived (R110, R256): it comes into force at the next boundary, or on a
Leader with a Follower at tide s + 2 with COP 2, s being the tide whose frame 0 carries it first. -/
def commitReady (s : State) (peerConf : Bool) : State :=
  if s.man.stage ≠ 6 || !s.man.confirmed || s.man.forceAt.isSome then s
  else match s.twin.role with
    | .leader =>
      if s.twin.cop = 1 then
        (if peerConf then
          let k := if s.tide.ph.toNat < 3 then 2 else 3
          let f := tideAdd s.now k
          { s.modMan fun m => { m with forceAt := some f } with
            twin := { s.twin with cop := 2, copLeft := k, ctide := f } }
        else s)
      else s.modMan fun m => { m with forceAt := some (tideAdd s.now 1) }
    | .follower => { s with twin := { s.twin with cconf := true } }
    | _ => s.modMan fun m => { m with forceAt := some (tideAdd s.now 1) }

/-- Both commit records of the staged slot read back as they were written (R110). -/
def commitReadsBack (s : State) (nor : List Host.Cell) : Bool :=
  let os := codeOctets (commitWords s.man.commitSeq.toNat s.man.commitTide s.man.stageDig)
  (commitOffsets (inactiveSlot s)).all fun a => norOctets nor a os.length = os

/-- 64 tides have passed since the commit write (R110). -/
def commitLate (s : State) : Bool := reached s.now (tideAdd s.man.commitAt 64)

/-- COMMIT_CONFIRMED: both dies have read their records back, within 64 tides of the write. A die whose records do not read
back has failed, and the commit is refused (R110). -/
def execCommitConfirmed (s : State) : Host.Outcome State Fault Refusal :=
  if s.man.stage ≠ 6 || s.man.confirmed || commitLate s then .next s
  else if !(commitReadsBack s s.norA && commitReadsBack s s.norB) then .next (commitRefuse s)
  else .next (commitReady (s.modMan fun m => { m with confirmed := true }) s.twin.cconf)

/-- COMMIT_TIMEOUT: a die has failed, or 64 tides have passed without both confirmations. -/
def execCommitTimeout (failed : Bool) (s : State) : Host.Outcome State Fault Refusal :=
  if s.man.stage = 6 && s.man.forceAt.isNone && (failed || (commitLate s && !s.man.confirmed)) then .next (commitRefuse s)
  else .next s

/-- The commit replaces nothing: its touch set is empty and the tables are not reloaded (R115). -/
def commitIdle (m : ManSt) : Bool := m.touch = 0 && !m.big

/-- The swap of Channel A begins (R178): no cone table, no run-ahead, EVA source 32. -/
def swapBegin (s : State) : State :=
  if s.man.swapDone || commitIdle s.man then s
  else
    let s1 := s.modMan fun m => { m with swapDone := true, rebuildSince := some s.now }
    fire1 (s1.modEva fun e => { e with swap := true, cones := false }) 32

/-- COMMIT_SWAP: after the last A_DONE under the old Manifest. -/
def execCommitSwap (s : State) : Host.Outcome State Fault Refusal :=
  let last := s.man.forceAt = some (tideAdd s.now 1)
  if s.man.stage = 6 && last && s.tide.aDone then .next (swapBegin s) else .next s

/-- The cone table is built for the active net (R152): EVA source 32 records how many nodes have no cone in it. -/
def conesBuild (s : State) : State :=
  let n := s.netX
  let kept := conesKept n s.eva.batches
  let s1 := (s.modMan fun m => { m with rebuildSince := none }).modEva fun e => { e with cones := true, coneNodes := kept }
  if kept.length < n.nnode then fire s1 32 0 (BitVec.ofNat 32 (n.nnode - kept.length)) else s1

/-- CONE_TABLE_REBUILT: run-ahead may resume. -/
def execConeTableRebuilt (s : State) : Host.Outcome State Fault Refusal :=
  if s.man.rebuildSince.isNone || s.eva.swap || !s.a.armed then .next s else .next (conesBuild s)

/-- The rebuild ends within 64 tides (R178). -/
def conesDue (s : State) : State :=
  if (s.man.rebuildSince.any fun t => reached s.now (tideAdd t 64)) && !s.eva.swap && s.a.armed then conesBuild s else s

/-! ## Load at start-up (R101 to R104) -/

/-- The outcome of both dies' load work: the common reason, 0 when both have loaded equal Manifests. -/
def loadReason (la lb : Load) : Nat :=
  match la.passed, lb.passed with
  | some _, some _ => if la.chk.digest = lb.chk.digest && la.seq = lb.seq then 0 else 0o017
  | none, none => if lowest la.chk.reasons = lowest lb.chk.reasons then lowest la.chk.reasons else 0o017
  | _, _ => 0o017

/-- What MANIFEST_CHECK shows of a load (R310). -/
def loadCheck (l : Load) : Byte := if l.chk.corrupt then 1 else 0

/-- Both dies' load work is noted: slot, check flags. -/
def loadNote (s : State) (la lb : Load) : State :=
  s.modMan fun m => { m with
    slot := BitVec.ofNat 9 (la.slot.getD 2), checkA := m.checkA ||| loadCheck la, checkB := m.checkB ||| loadCheck lb }

/-- Both dies' declaration SRAM holds section 2 and the node layout of the net (R149, R150), the A-die's where the core
addresses it. -/
def layoutStore (s : State) (n : Net) : State :=
  let base := declBase + 786432
  { s.rowsWrite .A declBase (declBase + 2 ^ 20) with
    mem := cellSetAll 0 (cellErase s.mem base (declBase + 2 ^ 20)) base (layoutWords n) }

/-- MANIFEST_LOAD_DONE: both dies have loaded equal Manifests; the module adopts the period and goes on to Translate and
prove at the next boundary (R104, R392, R393). -/
def execManifestLoadDone (s : State) : Host.Outcome State Fault Refusal :=
  if s.mode ≠ .load || s.man.stage = 6 then .next s
  else
    let la := loadDie s.norA
    let lb := loadDie s.norB
    match la.passed, lb.passed with
    | some nA, some nB =>
      if loadReason la lb ≠ 0 then .next s
      else
        let s1 := (loadNote s la lb).modMan fun m => { m with
          seq := BitVec.ofNat 36 la.seq, active := la.chk.digest, reason := 0 }
        let s2 : State := { layoutStore s1 nA with
          a := { s1.a with net := some nA }, b := { s1.b with net := some nB },
          tide := { s1.tide with perNext := some (BitVec.ofNat 3 nA.period, tideAdd s.now 1) },
          start := { s1.start with modeNext := some .translate, toLive := false },
          nodes := List.replicate nA.nnode {} }
        .next (recManifest s2 5 0 la.seq (la.slot.getD 2) la.chk.digest)
    | _, _ => .next s

/-- MANIFEST_LOAD_REFUSED: the module stays in Manifest load and records the combined reason (R103, R104). -/
def execManifestLoadRefused (s : State) : Host.Outcome State Fault Refusal :=
  let la := loadDie s.norA
  let lb := loadDie s.norB
  let why := loadReason la lb
  if s.mode ≠ .load || why = 0 || s.start.modeNext.isSome then .next s
  else
    let s1 := (loadNote s la lb).modMan fun m => { m with reason := BitVec.ofNat 9 why }
    .next (recManifest s1 5 why la.seq (la.slot.getD 2) s1.man.active)

/-- Translate and prove begins (R175): how long translation and the opcode vectors take is free within what R175 says (log
83). -/
def translateBegin (s : State) : State :=
  let e := tideAdd s.now (Config.translation s.draws)
  { s with
    draws := s.draws + 2,
    start := { s.start with tp := some {
      since := s.now, translated := e, proofFrom := tideAdd e (Config.vectorTides (s.draws + 1)).toNat, proof := none,
      result := none } } }

/-- The bound of translation in tides (R175). -/
def translateBound (per : Nat) : Nat := 2048 / per

/-- The proof that starts when translation and vectors have ended: the whole net as one slice (R175). -/
def wholeProof (s : State) : ProofSt := proofStart s.netA s.netB [List.range s.netA.insts.length]

/-- One tide of Translate and prove (R175): translation past its bound raises EVA source 30; then the net stimulus runs one
step, and the structural part is judged with the last one. -/
def translateTide (s : State) : State :=
  if s.mode ≠ .translate then { s with start := { s.start with tp := none } }
  else match s.start.tp with
    | none => translateBegin s
    | some tp =>
      let put (s : State) (x : TransProve) : State := { s with start := { s.start with tp := some x } }
      if tp.result.isSome then s
      else if !reached s.now tp.translated then
        fireIf s (s.now = tideAdd tp.since (translateBound s.per + 1)) 30
      else if !reached s.now tp.proofFrom || !s.runs .B then s
      else
        let p := tp.proof.getD (wholeProof s)
        let s1 : State := if tp.proof.isNone then { s with eva := { s.eva with batches := p.batches } } else s
        match proofCompare (proofStep s.per p) with
        | .more q => put s1 { tp with proof := some q }
        | .passed =>
          let r := if structuralOk p.batches p.netB then 0 else proofSubject .structural 0 p.step
          put s1 { tp with proof := none, result := some r }
        | .failed subj => put s1 { tp with proof := none, result := some subj }

/-- How the proof at start-up has ended: `vectors` says whether the opcode vectors showed what they should (log 31). None while
it goes on. -/
def proofEnd (s : State) (vectors : Bool) : Option (BitVec 32) :=
  match s.start.tp with
  | none => none
  | some tp => if vectors then tp.result
    else if reached s.now tp.translated then some (proofSubject .vectors 0 0) else none

/-- A proof at start-up has failed (R174, R175): source 31, and Manifest load with reason 0o020 from the next boundary. -/
def proofLost (s : State) (subj : BitVec 32) : State :=
  let s1 := fire s 31 0 subj
  { (s1.modMan fun m => { m with reason := 0o020, active := List.replicate 32 0, seq := 0 }) with
    start := { s1.start with modeNext := some .load } }

/-- TRANSLATE_PROVE_DONE: when the proof has ended, the module arms every instance at the next boundary and enters Enrol, or
Moored after a commit without NETCHG; a failed proof returns it to Manifest load with reason 0o020 (R175, R177, R179). -/
def execTranslateProveDone (vectors : Bool) (s : State) : Host.Outcome State Fault Refusal :=
  if s.mode ≠ .translate || s.start.modeNext.isSome then .next s
  else match proofEnd s vectors with
    | none => .next s
    | some r =>
      if r = 0 then
        .next { conesBuild s with start := { s.start with modeNext := some (if s.start.toLive then .live else .enrol) } }
      else .next (proofLost s r)

/-! ## The background check (R116) -/

/-- What a die finds in its active slot: the bits of MANIFEST_CHECK (data mismatch, damaged digest copy, invalid commit record:
R102, R310) and the reasons R102 gives. A slot that R436 refuses does not hold the data it held; its digest copies are not
used, so its commit records are judged against the active digest (log 80). -/
def backgroundFinding (nor : List Host.Cell) (slot : Nat) (active : Octets) : Byte × List Nat :=
  let c := checkSlot nor slot
  let broken := c.reasons.contains 0o003
  let recs := commitRecs nor slot
  let badRec := recs.length < 2 || recs.any fun r => r.digest ≠ (if broken then active else c.digest)
  (BitVec.ofNat 8 (b2n (broken || c.reasons.contains 0o001) * 2 + b2n (c.corrupt || c.reasons.contains 0o002) * 4
     + b2n badRec * 8),
   c.reasons.filter (fun r => r ≤ 3) ++ (if c.corrupt then [0o002] else []))

/-- BACKGROUND_MANIFEST_CHECK of a die: every finding is kept in MANIFEST_CHECK and recorded. -/
def execBackgroundManifestCheck (d : Die) (s : State) : Host.Outcome State Fault Refusal :=
  if !s.runs d || s.man.active = List.replicate 32 0 || 1 < s.man.slot.toNat then .next s
  else
    let f := backgroundFinding (match d with
      | .A => s.norA
      | .B => s.norB) s.man.slot.toNat s.man.active
    if f.1 = 0 then .next s
    else
      let s1 := s.modMan fun m => match d with
        | .A => { m with checkA := m.checkA ||| f.1 }
        | .B => { m with checkB := m.checkB ||| f.1 }
      .next (recManifest s1 6 (lowest f.2) s1.man.seq.toNat s1.man.slot.toNat s1.man.active)

end Sys2Proof.Machine
end

