-- ==== Sys2Proof/Machine/Entries.lean ====
section
/-!
DEFINITION. The value of every entry of the object dictionary (R77, R105, R146, R161, R206, R239, R264, R299, R303 to R314,
R326, R362, R380, R404, R419).
-/

namespace Sys2Proof.Machine

/-! ## Small encodings -/

/-- A U9 value. -/
def u9 (v : Nat) : Octets := be 2 v

/-- A 36-bit value. -/
def u36o (t : Tide) : Octets := be 5 t.toNat

/-- A word. -/
def u18 (w : Word) : Octets := be 3 w.toNat

/-- Two octets, saturating. -/
def sat2 (v : Nat) : Octets := be 2 (min v 65535)

/-- "LX-4218" (R308). -/
def productText : Octets := textOct 16 [0x4C, 0x58, 0x2D, 0x34, 0x32, 0x31, 0x38]

/-- What an action entry without a stated value reads as (log 29). -/
def actionValue (e n : Nat) : Octets := (List.range n).map fun j => Config.actionOctet e j

/-! ## Moorings and events -/

/-- OP and group field (R304). -/
def moorValue (m : Bool) (g : GSet) : Octets := if m then 2 :: List.replicate 64 0 else 1 :: gsetOct g

/-- MOOR_SETS (R304). -/
def moorSets (s : State) : Octets :=
  BitVec.ofNat 8 (b2n s.moor.comM * 128 + b2n (s.moor.faultM || s.moor.startup) * 64)
    :: (gsetOct s.moor.comG ++ gsetOct s.moor.faultG)

/-- The event registers the A-die shows of block b; those of EVB are its mirror. -/
def State.shown (s : State) (b : Nat) : EvBlock := s.ev.getD b (EvBlock.initial b)

/-- EVENT_BLOCK (R309). -/
def eventBlock (s : State) (b : Nat) : Octets :=
  let e := s.shown b
  u18 (statWord s b e) ++ be 3 e.mask.toNat ++ u18 e.sevL ++ u18 e.sevH ++ [e.fSrc] ++ u36o e.fTide ++ be 2 e.fTick.toNat

/-- FIRST of x comes before FIRST of y (R325). -/
def firstBefore (x y : EvBlock) : Bool :=
  if x.fTide ≠ y.fTide then later y.fTide x.fTide
  else if x.fTick ≠ y.fTick then decide (x.fTick < y.fTick)
  else if (x.fSrc = 0o376) != (y.fSrc = 0o376) then y.fSrc = 0o376
  else if x.fSev ≠ y.fSev then decide (y.fSev < x.fSev)
  else decide (x.fSrc < y.fSrc)

/-- The block whose FIRST comes first. -/
def firstFault (s : State) : Option Nat :=
  (List.range 18).foldl (fun best b =>
    let e := s.shown b
    if e.fSrc = 0o377 then best
    else match best with
      | none => some b
      | some c => if firstBefore e (s.shown c) then some b else best) none

/-- FIRST_FAULT (R326). -/
def firstFaultValue (s : State) : Octets :=
  match firstFault s with
  | none => 0xFF :: 0xFF :: List.replicate 8 0
  | some b =>
    let e := s.shown b
    [BitVec.ofNat 8 b, e.fSrc, BitVec.ofNat 8 (b2n e.fConseq * 128 + e.fSev.toNat)] ++ u36o e.fTide
      ++ be 2 e.fTick.toNat

/-! ## Ports and nodes -/

/-- LSTAT of port k (R237). The option of a lane is the one section 1 sets (R207, R234). -/
def lstat (s : State) (k : Nat) : Word :=
  let p := s.port k
  BitVec.ofNat 18 (b2n p.presB * 8192 + b2n p.presA * 4096 + b2n (s.netA.portOpt k .B) * 2048
    + b2n (s.netA.portOpt k .A) * 1024 + b2n p.upB * 512 + b2n p.upA * 256 + b2n p.rxB * 2 + b2n p.rxA)

/-- What the module keeps of node n. -/
def State.node (s : State) (n : Nat) : NodeRec := s.nodes.getD n {}

/-- NENR of a port (R237). -/
def nenr (s : State) (p : Nat) : Nat := countIf (s.netA.portNodes p) fun k => (s.node k).enrolled

/-- FPE_PORT (R239). -/
def fpePort (s : State) (p : Nat) : Octets :=
  let x := s.port p
  u18 (lstat s p) ++ be 3 (nenr s p) ++ u18 x.late ++ u18 x.oot ++ u18 x.siga ++ u18 x.sigb ++ u18 x.hdr ++ u18 x.dup

/-- NODE_STATUS (R239). -/
def nodeStatus (s : State) (n : Nat) : Octets :=
  let x := s.node n
  let port := if n < s.netA.nnode then s.netA.nodePort n else 0
  [BitVec.ofNat 8 (b2n x.enrolled * 128 + port)] ++ be 2 x.status.toNat ++ u36o x.lastTide ++ be 3 x.absent.toNat
    ++ be 2 x.cdiv.toNat ++ be 2 x.tdiv.toNat ++ be 4 x.typ.toNat ++ be 6 x.serial.toNat

/-! ## Twin, local I/O -/

/-- TWIN_PEER (R264). -/
def twinPeer (s : State) : Octets :=
  if s.twin.peer = [] then List.replicate 16 0
  else (s.twin.peer ++ List.replicate 4 0).take 4 ++ u36o s.twin.peerTide ++ List.replicate 7 0

/-- LIO_OUT_TESTS (R206). -/
def outTests (s : State) (n : Nat) : Octets :=
  let h := s.lio.hist.getD n {}
  u36o h.lastA ++ u36o h.lastB ++ be 2 h.fails.toNat

/-! ## Fuses, power, recorder, sessions -/

/-- FUSE_WORD (R380). -/
def fuseWord (s : State) (i : Nat) : Octets :=
  let f := s.fus.of (if i < 512 then .A else .B)
  let w := i % 512
  let r := w / 16
  let v := f.used
  let absent := v.lost r && (v.spareOf r).isNone
  u18 (f.shd w) ++ [BitVec.ofNat 8 (b2n (f.present.weakOf (16 * (v.server r).getD r + w % 16) ≠ 0) + b2n (f.ovrOf w).isSome * 2 + b2n absent * 4
    + b2n (f.readLocked r) * 8)]

/-- FUSE_REGIONS (R380). -/
def fuseRegions (s : State) (d : Nat) : Octets :=
  (List.range 32).flatMap fun r => be 2 ((s.fus.of (if d = 0 then .A else .B)).used.reg r).toNat

/-- POWER_STATE (R404). -/
def powerState (s : State) : Octets :=
  let p := s.pws
  u18 (pwsStat p) ++ sat2 p.vfa.toNat ++ sat2 p.vfb.toNat ++ sat2 p.ia.toNat ++ sat2 p.ib.toNat ++ sat2 p.vbus.toNat
    ++ u18 (pwsStbt p)

/-- RESET_LOG (R404). -/
def resetLog (s : State) : Octets :=
  u36o s.pws.firstTide ++ [s.pws.cause] ++ u18 s.pws.rsth ++ be 2 s.pws.longHolds.toNat ++ [0]

/-- REC_STATE (R419). -/
def recState (s : State) : Octets :=
  let r := s.rcd
  u36o (r.newest.getD 0) ++ be 3 r.newPos ++ u36o r.oldest ++ be 3 r.oldPos ++ sat2 r.usable ++ sat2 r.retired
    ++ sat2 r.emax ++ u18 r.drop ++ sat2 r.qfill
    ++ [BitVec.ofNat 8 (b2n (!r.queue.isEmpty) + b2n r.flinc * 2), 0, 0, 0, 0]

/-- A quarter of a page (R419). -/
def pageQuarter (s : State) (n : Nat) : Octets := slice (pageAt s.rcd (n / 4)) (1024 * (n % 4)) 1024

/-- Client address and UDP port of a session (R299). -/
def clientOctets : Client → Octets
  | .udp ip port => be 16 ip.toNat ++ be 2 port.toNat
  | .field p n => [BitVec.ofNat 8 p.val] ++ be 2 n.toNat ++ List.replicate 13 0 ++ [0, 0]
  | .peer u => [BitVec.ofNat 8 (b2n u)] ++ List.replicate 17 0
  | .own => List.replicate 18 0

/-- A request that has not completed. -/
def Slot.outstanding (x : Slot) : Bool := x.st ≠ .done

/-- SESSION (R299). -/
def sessionValue (s : State) (k : Nat) : Octets :=
  match s.ses k with
  | none => List.replicate 24 0
  | some x =>
    [BitVec.ofNat 8 (128 + x.level.toNat), BitVec.ofNat 8 x.client.path] ++ clientOctets x.client
      ++ [BitVec.ofNat 8 (countIf x.slots fun o => o.any Slot.outstanding), BitVec.ofNat 8 x.subs.length, 0, 0]

/-! ## Views -/

/-- DEMAND_COUNT (R146). -/
def demandCount (s : State) (p : Nat) : Nat :=
  let n := s.netA
  match (List.range n.insts.length).find? fun k => (n.inst k).op = 0o054 && ((n.inst k).outs.headD 0).toNat = p with
  | some k => match s.a.inst.getD k .none with
    | .count c _ _ _ => c
    | _ => 0
  | none => 0

/-- INSTANCE_STATE (R313). -/
def instState (s : State) (k : Nat) : Word := instView (s.netA.inst k) (s.a.inst.getD k .none)

/-- INSTANCE_INFO (R313). -/
def instInfo (s : State) (k : Nat) : Octets :=
  let n := s.netA
  let i := n.inst k
  be 2 i.op.toNat ++ [BitVec.ofNat 8 (n.levelOf k)] ++ be 2 i.group
    ++ [BitVec.ofNat 8 (b2n s.a.armed + b2n (n.mirrored.contains k) * 2)]

/-- The three declaration words of a point (R312). -/
def pointDecl (s : State) (p : Nat) : Octets :=
  let d := s.netA.decl p
  if d.kind = 0 then List.replicate 9 0 else u18 d.w0 ++ u18 d.w1 ++ u18 d.w2

/-! ## The value of an entry -/

/-- Identity, module state, tide and events. -/
def valueA (s : State) (e i : Nat) : Octets :=
  match e with
  | 0o000000 => productText
  | 0o000001 => be 16 Config.serial.toNat
  | 0o000002 => be 3 0o001001
  | 0o000003 => be 5 (2 ^ 27 + Config.execBuild.toNat)
  | 0o000004 => s.fus.a.used.bootDigest
  | 0o000005 => s.fus.b.used.bootDigest
  | 0o000006 => u9 s.twin.unitId.toNat
  | 0o010000 => u9 (moduleState s)
  | 0o010001 => moorValue s.moor.comM s.moor.comG
  | 0o010002 => s.dict.lastUnmoor
  | 0o010003 => u9 0
  | 0o010004 => u9 (b2n s.start.bench)
  | 0o010005 => moorSets s
  | 0o010010 => u9 s.core.part.toNat
  | 0o010011 => u36o s.core.faultTide ++ [BitVec.ofNat 8 s.core.partFkind.toNat] ++ be 3 s.core.partAddr.toNat
  | 0o020000 => u9 s.per
  | 0o020001 => u36o s.now
  | 0o020002 => s.tide.budget.flatMap fun w => be 2 w.toNat
  | 0o030000 => eventBlock s i
  | 0o030001 => be 3 0
  | 0o030002 => u18 (s.shown i).sevL ++ u18 (s.shown i).sevH
  | 0o030003 => be 3 (s.shown i).mask.toNat
  | 0o030100 => firstFaultValue s
  | _ => []

/-- Ports, twin, local I/O, timers, check engines and fuses. -/
def valueB (s : State) (e i : Nat) : Octets :=
  match e with
  | 0o040000 => fpePort s i
  | 0o040010 => nodeStatus s i
  | 0o040020 => u9 (b2n (decide (i < s.netA.nnode) && (s.node i).reenrol))
  | 0o050000 => u9 s.twin.role.code
  | 0o050001 => twinPeer s
  | 0o050002 => u9 s.twin.hold.toNat
  | 0o050003 => s.twin.health.flatMap fun x => be 5 x.toNat
  | 0o050004 => s.twin.nodes4.flatMap fun x => be 2 x.toNat
  | 0o050005 => gsetOct s.twin.groupDiff
  | 0o050006 => u18 s.twin.resyncCnt
  | 0o060000 => be 4 s.lio.inA.toNat ++ be 4 s.lio.inB.toNat ++ be 4 s.lio.flt.toNat
  | 0o060001 => be 2 s.lio.cmdA.toNat ++ be 2 s.lio.cmdB.toNat ++ be 2 s.lio.rbA.toNat ++ be 2 s.lio.qovl.toNat
  | 0o060002 => sat2 s.lio.vsupA.toNat ++ sat2 s.lio.vsupB.toNat ++ sat2 s.lio.isens.toNat
  | 0o060010 => outTests s i
  | 0o070000 =>
    let t := s.tim.get i
    u18 t.ctrl ++ u18 t.sta ++ u18 t.cnt ++ u18 t.per ++ u18 t.cmp ++ u18 t.cap
  | 0o074000 =>
    let c := s.eng i
    be 3 c.ctrl.toNat ++ u18 c.sta ++ be 4 c.res.toNat ++ be 4 c.exp.toNat ++ u18 c.fed
  | 0o076000 => fuseWord s i
  | 0o076001 => fuseRegions s i
  | 0o076010 => actionValue 0o076010 5
  | 0o076011 => actionValue 0o076011 2
  | 0o076020 => actionValue 0o076020 8
  | 0o076021 => s.fus.entRes
  | _ => []

/-- Octets of a value that the manual does not state in this state (log 32). -/
def openOctets (s : State) (n : Nat) : Octets := (List.range n).map (Config.stagedOctet s.now.toNat)

/-- Manifest management, power, recorder, sessions and the views. -/
def valueC (s : State) (e i : Nat) : Octets :=
  match e with
  | 0o100000 => if inLoad s then List.replicate 32 0 else s.man.active
  | 0o100001 => s.man.enrolledDig
  | 0o100002 => u36o (if inLoad s then 0 else s.man.seq)
  | 0o100003 => u9 s.man.slot.toNat
  | 0o100004 => u9 s.man.reason.toNat
  | 0o100005 => [s.man.checkA, s.man.checkB, 0, 0]
  | 0o100010 => be 3 (s.man.stageReason.toNat * 512 + s.man.stage.toNat)
  | 0o100011 => s.dict.lastCommit
  | 0o100012 => if s.man.stage = 4 then s.man.stageDig else openOctets s 32
  | 0o100013 => if s.man.stage = 4 then gsetOct s.man.touch else openOctets s 64
  | 0o120000 => powerState s
  | 0o120001 => actionValue 0o120001 2
  | 0o120002 => resetLog s
  | 0o120003 => actionValue 0o120003 2
  | 0o120100 => recState s
  | 0o140000 => helmVal s
  | 0o140010 => sessionValue s i
  | 0o140020 => u9 0
  | 0o140030 => u36o s.svc.authFail
  | 0o200000 => u18 (committedWord s .A i)
  | 0o200001 => provOctets s i
  | 0o200002 => be 3 (demandCount s i)
  | 0o200003 => pointDecl s i
  | 0o210000 => u18 (instState s i)
  | 0o210001 => u18 (instState s (262144 + i))
  | 0o210002 => instInfo s i
  | 0o210003 => instInfo s (262144 + i)
  | _ => []

/-- The value of entry e at index i. -/
def entryValue (s : State) (e i : Nat) : Octets :=
  if e < 0o040000 then valueA s e i
  else if e < 0o100000 then valueB s e i
  else if 0o121000 ≤ e && e ≤ 0o121037 then pageQuarter s (262144 * (e - 0o121000) + i)
  else if 0o160000 ≤ e && e ≤ 0o177777 then (List.range 32).map fun k => protOf s (32 * (e - 0o160000) + k)
  else valueC s e i

/-! ## Form and availability of a request (R281, R284, R288) -/

/-- An index addresses something (R313, R419). -/
def indexFits (s : State) (e i n : Nat) : Bool :=
  i < n &&
    (if e = 0o210000 || e = 0o210002 then decide (i < s.netA.insts.length)
     else if e = 0o210001 || e = 0o210003 then decide (262144 + i < s.netA.insts.length)
     else if 0o121000 ≤ e && e ≤ 0o121037 then decide ((262144 * (e - 0o121000) + i) / 4 < 64 * s.rcd.usable)
     else true)

/-- The form status of a request to an entry: 0x01, 0x02, 0x10, or 0 (R284, stage 1). `idx` is the IDX bit. -/
def formStatus (s : State) (e i : Nat) (idx bad : Bool) : Nat :=
  match entOf e with
  | none => 1
  | some x =>
    match x.idx with
    | some n => if idx && !indexFits s e i n then 2 else if !idx || bad then 0x10 else 0
    | none => if idx || bad then 0x10 else 0

/-- The unit of block b that can be in reset. -/
def blockUnit (b : Nat) : Option RstUnit :=
  match b with
  | 4 => some (.fpe 0)
  | 5 => some (.fpe 1)
  | 6 => some (.fpe 2)
  | 7 => some (.fpe 3)
  | 9 => some .mgp
  | 17 => some .svc
  | _ => none

/-- The block that a request names, or that serves its entry, is in reset (R288, R398). A block's event registers stay readable,
so of the event entries a WRITE alone needs the block (log 90). -/
def entryDown (s : State) (q : Req) : Bool :=
  let e := q.entry.toNat
  let i := q.index.toNat
  let data := q.data
  if 0o030001 ≤ e && e ≤ 0o030003 then q.op = 1 && (blockUnit i).any s.unitDown
  else if 0o140000 ≤ e && e ≤ 0o140203 then s.unitDown .svc
  else if e = 0o040000 then (match i with
    | 0 => s.unitDown (.fpe 0)
    | 1 => s.unitDown (.fpe 1)
    | 2 => s.unitDown (.fpe 2)
    | _ => s.unitDown (.fpe 3))
  else if e = 0o076000 then 512 ≤ i && s.b.inReset
  else if e = 0o076001 then i = 1 && s.b.inReset
  else if e = 0o076020 then field data 1 1 = 1 && s.b.inReset
  else if e = 0o076010 then 512 ≤ field data 0 2 && s.b.inReset
  else false

/-- The request names a point or instance of a touched group in the tide that ends at the commit's boundary (R112). -/
def entryRetry (s : State) (e i : Nat) : Bool :=
  let now := s.man.stage = 6 && s.man.forceAt = some (tideAdd s.now 1)
  let g : Option Nat :=
    if 0o200000 ≤ e && e ≤ 0o200003 then some (groupOf i)
    else if e = 0o210000 || e = 0o210002 then some (s.netA.inst i).group
    else if e = 0o210001 || e = 0o210003 then some (s.netA.inst (262144 + i)).group
    else none
  now && g.any fun g => gHas s.man.touch g

/-- Stages 1 and 2 of R284: the status, or 0. -/
def earlyStatus (s : State) (q : Req) : Nat :=
  let f := formStatus s q.entry.toNat q.index.toNat q.idx q.bad
  if f ≠ 0 then f
  else if entryDown s q then 0x0A
  else if entryRetry s q.entry.toNat q.index.toNat then 0x0B
  else 0

end Sys2Proof.Machine
end

