-- ==== Sys2Proof/Machine/Service.lean ====
section
/-!
DEFINITION. The service: receiving messages (R274 to R279), opening and closing sessions (R278, R280), taking requests
into their slots (R281, R282), when a request may execute (R286, R287), and every request but a WRITE: READ, FENCE, the
Helm requests and SUBSCRIBE (R283 to R294).
-/

namespace Sys2Proof.Machine

/-! ## Receiving (R274 to R279) -/

/-- Change the SVC block. -/
def State.modSvc (s : State) (f : SvcSt → SvcSt) : State := { s with svc := f s.svc }

/-- Change the dictionary's own values. -/
def State.modDict (s : State) (f : DictSt → DictSt) : State := { s with dict := f s.dict }

/-- A message is discarded as not authentic (R279): counted, SVC source 142. -/
def authFail (s : State) : State := fire1 (s.modSvc fun v => { v with authFail := v.authFail + 1 }) 142

/-- The service takes messages: the A-die runs past its fuses, SVC is not in reset, and for port M neither is MGP (R328). -/
def serviceUp (s : State) (c : Client) : Bool :=
  s.mode ≠ .off && s.mode ≠ .halted && s.runs .A && !s.unitDown .svc && !(c.path = 0 && s.unitDown .mgp)

/-- The form of R276: version, type, reserved bits and length. -/
def msgForm (m : Octets) : Bool :=
  let h0 := field m 0 1
  let h1 := field m 1 1
  let len := field m 2 2
  24 ≤ m.length && h0 / 16 = 1 && h0 % 16 ≤ 6 && h1 / 128 = 0 && h1 / 4 % 4 = 0 && len ≤ 1416 && m.length = 24 + len

/-- The type, session, level, counter and body of a message whose form is right. -/
def msgOf (c : Client) (m : Octets) : InMsg :=
  { ses := some ⟨field m 1 1 / 16 % 8, by omega⟩, client := c, typ := BitVec.ofNat 4 (field m 0 1),
    level := BitVec.ofNat 2 (field m 1 1), cnt := BitVec.ofNat 32 (field m 4 4), body := slice m 8 (field m 2 2) }

/-- The last 16 octets of a message are its MAC under a key and two nonces (R277). -/
def macPasses (key nc nm m : Octets) : Bool :=
  mac key (nc ++ nm ++ m.take (m.length - 16)) = m.drop (m.length - 16)

/-- An OPEN arrives (R278, R279). One that passes its checks but names a session, or whose body is no nonce, is discarded as
malformed (R276). -/
def openReceive (s : State) (x : InMsg) (m : Octets) : State :=
  match s.key x.level.toNat with
  | none => authFail s
  | some key =>
    if x.cnt ≠ 0 || !macPasses key x.body (List.replicate 8 0) m then authFail s
    else if x.ses ≠ some 0 || x.body.length ≠ 8 then s
    else s.modSvc fun v => { v with inbox := v.inbox ++ [{ x with ses := none }] }

/-- A landed request of the holder's session renews the lease (R292). -/
def leaseRenew (s : State) (k : Fin 8) : State :=
  if s.svc.helm.holder = some k then
    s.modSvc fun v => { v with helm := { v.helm with leaseEnd := tideAdd s.now s.leaseTides } }
  else s

/-- A message of a session arrives: its session is open over this path, client and level, the MAC passes, and the counter
passes the window of 32 values (R274, R279). A REQUEST or CLOSE waits to be handled; any other type is accepted and ignored (log
44). With the last counter value the session ends. -/
def sesReceive (s : State) (k : Fin 8) (x : InMsg) (m : Octets) : State :=
  match s.ses k.val with
  | none => authFail s
  | some y =>
    if y.client ≠ x.client || y.level ≠ x.level
        || !macPasses ((s.key y.level.toNat).getD []) (be 8 y.nc.toNat) (be 8 y.nm.toNat) m then authFail s
    else match winTake y.rxHigh y.rxSeen x.cnt with
      | none => authFail s
      | some w =>
        let s1 := s.modSes k.val fun z => { z with rxHigh := w.1, rxSeen := w.2, last := s.now }
        let s2 := if x.typ = 2 || x.typ = 5 then s1.modSvc fun v => { v with inbox := v.inbox ++ [x] } else s1
        let s3 := if x.typ = 2 then leaseRenew s2 k else s2
        if x.cnt = 0xFFFFFFFF && x.typ ≠ 5 then endSession s3 k else s3

/-- A service message of a client arrives, `tap` what the B-die's tap keeps of the frames that carried it (R106). -/
def receive (s : State) (c : Client) (m : Octets) (tap : Option Tap) : State :=
  if !serviceUp s c || !msgForm m then s
  else
    let x : InMsg := { msgOf c m with tap := tap }
    if x.typ = 0 then openReceive s x m
    else match x.ses with
      | some k => sesReceive s k x m
      | none => s

/-- UDP_DATAGRAM_RECEIVED: the message as each die received it. IP fragments are discarded (R274). -/
def execUdpDatagramReceived (ip : BitVec 128) (port : BitVec 16) (frag : Bool) (copies : DieCopies) (s : State) :
    Host.Outcome State Fault Refusal :=
  .next (if frag then s
    else receive s (.udp ip port) copies.a (if s.runs .B then some { since := s.now, octets := copies.b } else none))

/-! ## Opening and closing (R278, R280) -/

/-- The oldest message of a type that waits, with the others; a SVC in reset handles none (R328). -/
def takeInbox (s : State) (typ : BitVec 4) : Option (InMsg × State) :=
  match s.svc.inbox.find? fun m => m.typ = typ && !s.unitDown .svc with
  | none => none
  | some m => some (m, s.modSvc fun v => { v with inbox := v.inbox.eraseP fun m => m.typ = typ })

/-- A REJECT (R278). -/
def reject (s : State) (x : InMsg) (why : Byte) : State :=
  svcOut s x.client (svcMessage ((s.key x.level.toNat).getD []) x.body (List.replicate 8 0) 6 0 x.level.toNat 0 [why])
    none

/-- The session numbers that are free. -/
def freeSessions (s : State) : List (Fin 8) := sesNums.filter fun k => (s.ses k.val).isNone

/-- A session as it opens. -/
def Session.opened (x : InMsg) (nm : BitVec 64) (now : Tide) : Session :=
  { level := x.level, client := x.client, nc := BitVec.ofNat 64 (ofBe x.body), nm := nm, rxHigh := 0, rxSeen := 1,
    txCnt := 0, last := now, slots := List.replicate 16 none, subs := [], writes := [], notes := [], late := [] }

/-- The body of an OPEN_ACK (R278). -/
def openAck (s : State) (x : InMsg) (nm : BitVec 64) : Octets :=
  x.body ++ be 8 nm.toNat ++ [BitVec.ofNat 8 (b2n s.unitBit)] ++ be 3 (if s.loaded then s.netA.zone.toNat else 0)

/-- Open a session under a free number: which one, and its nonce, are free values (logs 8 and 19). -/
def openSession (s : State) (x : InMsg) : State :=
  let free := freeSessions s
  match free[Config.pickSession s.draws % free.length]? with
  | none => reject s x 1
  | some k =>
    let nm := Config.entropy s.draws
    let s1 : State := { s with
      draws := s.draws + 1,
      svc := { s.svc with ses := listMod s.svc.ses k.val fun _ => some (Session.opened x nm s.now) } }
    svcOut s1 x.client (svcMessage ((s.key x.level.toNat).getD []) x.body (be 8 nm.toNat) 1 k.val x.level.toNat 0
      (openAck s x nm)) none

/-- OPEN: the oldest OPEN is answered. Before the end of Self-test it is rejected (R274, R278). -/
def execSessOpen (s : State) : Host.Outcome State Fault Refusal :=
  match takeInbox s 0 with
  | none => .next s
  | some (x, s1) =>
    if s1.mode = .fuseRead || s1.mode = .selfTest then .next (reject s1 x 2) else .next (openSession s1 x)

/-- SESSION_TIMEOUT: 60 s without an accepted message of the client (R280). -/
def execSessionTimeout (k : Fin 8) (s : State) : Host.Outcome State Fault Refusal :=
  match s.ses k.val with
  | none => .next s
  | some x => if reached s.now (tideAdd x.last (s.tides 60000)) then .next (endSession s k) else .next s

/-! ## Taking a request (R281, R282) -/

/-- The data of an OP has a form of its own: none for READ, FENCE and HELM_RELEASE, one octet for the other Helm requests
(with SEIZE alone in HELM_REQUEST), two octets for SUBSCRIBE. -/
def dataForm (op : Nat) (d : Octets) : Bool :=
  match op with
  | 0 => d.isEmpty
  | 1 => true
  | 2 => d.isEmpty
  | 3 => d.length = 1 && field d 0 1 ≤ 1
  | 4 => d.isEmpty
  | 5 => d.length = 1
  | 6 => d.length = 2
  | _ => false

/-- A REQUEST body of at least 12 octets. -/
def reqOf (b : Octets) : Req :=
  let f := field b 1 1
  let d := b.drop 12
  { op := BitVec.ofNat 8 (field b 0 1), fence := bitOf f 7, idx := bitOf f 6, rid := BitVec.ofNat 4 f,
    rn := BitVec.ofNat 16 (field b 2 2), entry := BitVec.ofNat 24 (field b 4 3), index := BitVec.ofNat 24 (field b 7 3),
    data := d,
    bad := f / 16 % 4 ≠ 0 || field b 10 2 ≠ d.length || (!bitOf f 6 && field b 7 3 ≠ 0)
      || !dataForm (field b 0 1) d }

/-- A request that has not executed (R280, R293). -/
def Slot.unexecuted (x : Slot) : Bool := x.st = .waiting || x.st = .seizing

/-- What a RESPONSE to a request that did not execute carries: a Helm request's the value of HELM_HOLDER (R283). -/
def helmData (s : State) (q : Req) : Octets := if 3 ≤ q.op.toNat && q.op.toNat ≤ 5 then helmVal s else []

/-- A new request takes its slot; one whose OP is reserved completes at once, with the lowest code of its form (R284). -/
def slotNew (s : State) (k : Fin 8) (q : Req) (cnt : BitVec 32) (tap : Option Tap) : State :=
  let s1 := s.setSlot k.val q.rid.toNat { req := q, cnt := cnt, st := .waiting, ift := s.now, resp := [], tap := tap }
  if 6 < q.op.toNat then
    complete s1 k q.rid.toNat (formStatus s1 q.entry.toNat q.index.toNat q.idx true) s1.now s1.now []
  else s1

/-- A request meets the last one of its slot (R282). -/
def slotTake (s : State) (k : Fin 8) (q : Req) (cnt : BitVec 32) (tap : Option Tap) : State :=
  match s.slot k.val q.rid.toNat with
  | none => slotNew s k q cnt tap
  | some old =>
    if old.outstanding then
      (if old.req.rn = q.rn then s else sesSend s k 3 (respBody q 0x0C s.now s.now (helmData s q)))
    else if old.req.rn = q.rn then sesSend s k 3 old.resp
    else slotNew s k q cnt tap

/-- REQUEST: the oldest REQUEST is handled; a body shorter than 12 octets is discarded (R281). -/
def execRequest (s : State) : Host.Outcome State Fault Refusal :=
  match takeInbox s 2 with
  | none => .next s
  | some (x, s1) =>
    match x.ses with
    | none => .next s1
    | some k => if x.body.length < 12 then .next s1 else .next (slotTake s1 k (reqOf x.body) x.cnt x.tap)

/-! ## Closing (R280) -/

/-- The requests of session k that have landed and wait take their slots, in the order in which they came. -/
def takeLanded (s : State) (k : Fin 8) : State :=
  let mine (m : InMsg) : Bool := m.ses = some k && m.typ = 2
  (s.svc.inbox.filter fun m => mine m && 12 ≤ m.body.length).foldl (fun s m => slotTake s k (reqOf m.body) m.cnt m.tap)
    (s.modSvc fun v => { v with inbox := v.inbox.filter fun m => !mine m })

/-- Every request of session k that has not executed completes with 0x0D, in the order of its slots (R280). -/
def answerEnding (s : State) (k : Fin 8) : State :=
  (List.range 16).foldl (fun s rid =>
    match s.slot k.val rid with
    | none => s
    | some sl => if sl.unexecuted then complete s k rid 0x0D s.now s.now (helmData s sl.req) else s) (takeLanded s k)

/-- CLOSE: the oldest CLOSE ends its session, whose requests are answered first (R280). -/
def execSessClose (s : State) : Host.Outcome State Fault Refusal :=
  match takeInbox s 5 with
  | none => .next s
  | some (x, s1) =>
    match x.ses with
    | none => .next s1
    | some k => .next (endSession (answerEnding s1 k) k)

/-! ## When a request may execute (R286, R287) -/

/-- A message counter is earlier than another. -/
def cntBefore (a b : BitVec 32) : Bool := a ≠ b && (b - a).toNat < 2 ^ 31

/-- A FENCE request, or one with the FENCE flag. -/
def Req.barrier (q : Req) : Bool := q.fence || q.op = 2

/-- The slots of a session that hold a request. -/
def Session.reqs (x : Session) : List Slot := x.slots.filterMap id

/-- Every earlier WRITE of the session is in force. -/
def writesInForce (s : State) (k : Fin 8) (x : Session) (cnt : BitVec 32) : Bool :=
  (x.writes.all fun w => !cntBefore w.1 cnt || reached s.now w.2)
    && !(s.man.stage = 6 && s.dict.commitBy.any fun w => w.1 = k && cntBefore w.2 cnt)

/-- The requests of session k that have landed before a counter value and wait for their slots. -/
def landedBefore (s : State) (k : Fin 8) (cnt : BitVec 32) : List Req :=
  (s.svc.inbox.filter fun m => m.ses = some k && m.typ = 2 && cntBefore m.cnt cnt && 12 ≤ m.body.length).map fun m => reqOf m.body

/-- The fences and the order of R286 and R287 let the request of slot rid execute, of the landed requests those among them that
still wait for their slots. -/
def ready (s : State) (k : Fin 8) (rid : Nat) : Bool :=
  match s.ses k.val with
  | none => false
  | some x => match x.slots.getD rid none with
    | none => false
    | some sl =>
      let before := x.reqs.filter fun y => y.outstanding && cntBefore y.cnt sl.cnt
      let landed := landedBefore s k sl.cnt
      let same (q : Req) : Bool := q.entry = sl.req.entry && q.index = sl.req.index
      let free := if sl.req.barrier then before.isEmpty && landed.isEmpty && writesInForce s k x sl.cnt
        else (before.all fun y => !y.req.barrier && !(y.unexecuted && same y.req))
          && landed.all fun q => !q.barrier && !same q
      sl.st = .waiting && free

/-- The request of slot r when its OP is `op` and it may execute. -/
def readyOp (s : State) (k : Fin 8) (r : Fin 16) (op : Byte) : Option Slot :=
  if ready s k r.val then (s.slot k.val r.val).filter fun sl => sl.req.op = op else none

/-- A request completes in the tide in which it executes. -/
def finish (s : State) (k : Fin 8) (r : Fin 16) (status : Nat) (data : Octets) : State :=
  complete s k r.val status s.now s.now data

/-! ## READ and FENCE -/

/-- READ of a value (R283 to R285). POWER_STATE measures first. -/
def doRead (s : State) (k : Fin 8) (r : Fin 16) (q : Req) : State :=
  let f := earlyStatus s q
  let e := q.entry.toNat
  if f ≠ 0 then finish s k r f []
  else if !mayRead s (s.sesLevel k.val) e then finish s k r 3 []
  else
    let s1 := if e = 0o120000 then pwsMeasure s else s
    finish s1 k r 0 (entryValue s1 e q.index.toNat)

/-- READ. -/
def execRead (k : Fin 8) (r : Fin 16) (s : State) : Host.Outcome State Fault Refusal :=
  match readyOp s k r 0 with
  | some sl => .next (doRead s k r sl.req)
  | none => .next s

/-- Stages 1 and 2 of R284 for a request whose form also fixes its entry. -/
def fixedForm (s : State) (q : Req) (e : Nat) : Nat :=
  let f := formStatus s q.entry.toNat q.index.toNat q.idx q.bad
  if f ≠ 0 then f else if q.entry.toNat ≠ e then 0x10 else if entryDown s q then 0x0A else 0

/-- FENCE: it changes nothing and completes when it executes (R287). -/
def execFence (k : Fin 8) (r : Fin 16) (s : State) : Host.Outcome State Fault Refusal :=
  match readyOp s k r 2 with
  | some sl => .next (finish s k r (fixedForm s sl.req 0) [])
  | none => .next s

/-! ## The Helm (R291 to R294) -/

/-- A Helm request completes with the value of HELM_HOLDER after it. -/
def finishHelm (s : State) (k : Fin 8) (r : Fin 16) (status : Nat) : State := finish s k r status (helmVal s)

/-- The length of a seizure notice. -/
def State.noticeTides (s : State) : Nat := s.tides 2000

/-- A seizure notice starts: the request stays outstanding, the holder is told (R293, R294). -/
def startNotice (s : State) (k : Fin 8) (r : Fin 16) (sl : Slot) (h : Fin 8) : State :=
  let s1 := s.setSlot k.val r.val { sl with st := .seizing }
  let s2 := s1.modSvc fun v => { v with helm := { v.helm with
    seizer := some k, seizeRid := sl.req.rid, noticeEnd := tideAdd s.now s.noticeTides } }
  helmNotify (recHelm s2 4 (some h) (some k) (s.sesLevel h.val) (s.sesLevel k.val) (s.sesPath k.val)) [h.val]

/-- HELM_REQUEST of a session of level 1 or above (R291, R293). -/
def helmAsk (s : State) (k : Fin 8) (r : Fin 16) (sl : Slot) : State :=
  match s.svc.helm.holder with
  | none => let s1 := helmGive s k 1; finishHelm s1 k r 0
  | some h =>
    if h = k then
      let s1 := leaseRenew s k
      finishHelm s1 k r 0
    else if field sl.req.data 0 1 = 0 then finishHelm s k r 0x0E
    else if s.sesLevel k.val < 3 then finishHelm s k r 4
    else if s.svc.helm.seizer.isSome then finishHelm s k r 0x11
    else startNotice s k r sl h

/-- What every Helm request shares: the form, and level 1 or above. -/
def helmWith (s : State) (k : Fin 8) (r : Fin 16) (sl : Slot) (act : State) : State :=
  let f := fixedForm s sl.req 0o140000
  if f ≠ 0 then finishHelm s k r f
  else if s.sesLevel k.val = 0 then finishHelm s k r 4
  else act

/-- HELM_REQUEST. -/
def execHelmRequest (k : Fin 8) (r : Fin 16) (s : State) : Host.Outcome State Fault Refusal :=
  match readyOp s k r 3 with
  | some sl => .next (helmWith s k r sl (helmAsk s k r sl))
  | none => .next s

/-- HELM_RELEASE by the holder (R292). -/
def helmLeave (s : State) (k : Fin 8) (r : Fin 16) : State :=
  if s.svc.helm.holder ≠ some k then finishHelm s k r 5
  else
    let s1 := helmFree s 2
    finishHelm s1 k r 0

/-- HELM_RELEASE. -/
def execHelmRelease (k : Fin 8) (r : Fin 16) (s : State) : Host.Outcome State Fault Refusal :=
  match readyOp s k r 4 with
  | some sl => .next (helmWith s k r sl (helmLeave s k r))
  | none => .next s

/-- HELM_HANDOVER by the holder to another open session of level 1 or above (R292). -/
def helmPass (s : State) (k : Fin 8) (r : Fin 16) (target : Nat) : State :=
  if s.svc.helm.holder ≠ some k then finishHelm s k r 5
  else match sesNums.find? fun j => j.val = target with
    | none => finishHelm s k r 8
    | some j =>
      if j = k || s.sesLevel j.val = 0 then finishHelm s k r 8
      else if s.svc.helm.seizer.isSome then finishHelm s k r 0x11
      else
        let s1 := helmGive s j 3
        finishHelm s1 k r 0

/-- HELM_HANDOVER. -/
def execHelmHandover (k : Fin 8) (r : Fin 16) (s : State) : Host.Outcome State Fault Refusal :=
  match readyOp s k r 5 with
  | some sl => .next (helmWith s k r sl (helmPass s k r (field sl.req.data 0 1)))
  | none => .next s

/-- HELM_LEASE_EXPIRY: the lease has run out (R292). -/
def execHelmLeaseExpiry (s : State) : Host.Outcome State Fault Refusal :=
  if s.svc.helm.holder.isSome && reached s.now s.svc.helm.leaseEnd then .next (helmFree s 6) else .next s

/-- SEIZURE_NOTICE_END: the notice has run its 2 s (R293). -/
def execSeizureNoticeEnd (s : State) : Host.Outcome State Fault Refusal :=
  match s.svc.helm.seizer with
  | some z => if reached s.now s.svc.helm.noticeEnd then .next (seizeGrant s z) else .next s
  | none => .next s

/-! ## SUBSCRIBE (R289) -/

/-- The numbers of the subscriptions a session holds. -/
def Session.subNums (x : Session) : List Nat := x.subs.map fun u => u.num.toNat

/-- The subscription of a session to an entry and index. -/
def Session.subOf (x : Session) (e i : Word) : Option Sub := x.subs.find? fun u => u.entry = e && u.index = i

/-- The lowest free subscription number. -/
def Session.subFree (x : Session) : Option Nat := (List.range 64).find? fun n => !x.subNums.contains n

/-- Put a subscription in place of any of its number, in the order of numbers. -/
def subPut (s : State) (k : Fin 8) (u : Sub) : State :=
  s.modSes k.val fun x => { x with
    subs := sortBy (fun a b => decide (a.num ≤ b.num)) (u :: x.subs.filter fun v => v.num ≠ u.num) }

/-- A SUBSCRIBE whose form and read right hold. -/
def subTake (s : State) (k : Fin 8) (r : Fin 16) (x : Session) (e i : Word) (period : Nat) : State :=
  match x.subOf e i with
  | some u =>
    if period = 0 then finish (dropSub s k.val u.num.toNat) k r 0 [u.num]
    else
      let s1 := subPut s k { u with period := BitVec.ofNat 16 period, since := s.now, lastVal := [] }
      finish (provNotify s1) k r 0 [u.num]
  | none =>
    if period = 0 then finish s k r 0x0F []
    else match x.subFree with
      | none => finish s k r 0x0F []
      | some n =>
        let s1 := subPut s k { num := BitVec.ofNat 8 n, entry := e, index := i, period := BitVec.ofNat 16 period,
                               since := s.now, lastVal := [] }
        finish (provNotify s1) k r 0 [BitVec.ofNat 8 n]

/-- SUBSCRIBE. -/
def execSubscribe (k : Fin 8) (r : Fin 16) (s : State) : Host.Outcome State Fault Refusal :=
  match readyOp s k r 6, s.ses k.val with
  | some sl, some x =>
    let q := sl.req
    let f := earlyStatus s q
    if f ≠ 0 then .next (finish s k r f [])
    else if !mayRead s (s.sesLevel k.val) q.entry.toNat then .next (finish s k r 3 [])
    else .next (subTake s k r x (q.entry.setWidth 18) (q.index.setWidth 18) (field q.data 0 2))
  | _, _ => .next s

end Sys2Proof.Machine
end

