-- ==== Sys2Proof/Machine/Writes.lean ====
section
/-!
DEFINITION. WRITE requests: what each writable entry takes and does (R45, R106, R109, R239, R255, R264, R270, R299, R304 to
R307, R309, R315, R380, R404), the stages of R284, and the DICT record (R411).
-/

namespace Sys2Proof.Machine

/-- What a write to an entry comes to: the codes its own rule finds against it, and, when there are none, the state after
it and the tide from which it is in force. -/
structure WOut where
  codes : List Nat
  st : State
  ift : Tide

/-- A write that is in force at once. -/
def WOut.atOnce (codes : List Nat) (s : State) : WOut := { codes := codes, st := s, ift := s.now }

/-- A write that is in force from the next tide boundary. -/
def WOut.atBoundary (codes : List Nat) (s : State) : WOut := { codes := codes, st := s, ift := tideAdd s.now 1 }

/-- Code c where a condition holds. -/
def codeIf (b : Bool) (c : Nat) : List Nat := if b then [c] else []

/-- A role that follows another unit (R255). -/
def Role.follows : Role → Bool
  | .follower => true
  | .isoSending => true
  | .isoSilent => true
  | _ => false

/-! ## Moor commands (R304, R305, R255) -/

/-- The groups a value names; the module is named by OP 2. -/
def moorNames (d : Octets) : GSet := if field d 0 1 = 1 then gsetOf (d.drop 1) else 0

/-- The value names the module. -/
def moorModule (d : Octets) : Bool := field d 0 1 = 2

/-- OP and group field are as R304 has them. -/
def moorForm (d : Octets) : Bool :=
  (field d 0 1 = 1 && moorNames d ≠ 0) || (field d 0 1 = 2 && gsetOf (d.drop 1) = 0)

/-- The tide from which a moor or unmoor write is in force: on a Leader one written after the start of mirroring waits for
the next one (R255). -/
def moorInForce (s : State) : Tide :=
  if s.twin.role = .leader && 3 ≤ s.tide.ph.toNat then tideAdd s.now 2 else tideAdd s.now 1

/-- MOOR_COMMAND. -/
def writeMoor (s : State) (d : Octets) : WOut :=
  let g := moorNames d
  let m := moorModule d
  let st : State :=
    if s.twin.role = .leader then
      { s with moor := { s.moor with qAddG := s.moor.qAddG ||| g, qAddM := s.moor.qAddM || m } }
    else { s with moor := { s.moor with addG := s.moor.addG ||| g, addM := s.moor.addM || m } }
  { codes := codeIf (!moorForm d || !s.armedMode) 8 ++ codeIf s.twin.role.follows 9, st := st, ift := moorInForce s }

/-- A group may leave its fault mooring: every source that put it there has been cleared since (R335). -/
def groupFree (s : State) (g : Nat) : Bool := !(s.moor.gSrc.any fun x => x.1 = g)

/-- The module may leave its fault mooring (R336, R395). -/
def moduleFree (s : State) : Bool :=
  s.mode = .live && s.moor.mSrc.isEmpty && !(s.ev.any fun e => e.parerr) && !s.evb.parerr && s.man.stage ≠ 6

/-- What stands against unmooring group g. -/
def unmoorGroupBars (s : State) (g : Nat) : Bool :=
  let moored := gHas s.mooredG g
  gHas (s.moor.addG ||| s.moor.qAddG) g || (moored && s.man.stage = 6 && gHas s.man.touch g)
    || (gHas s.moor.faultG g && !groupFree s g)

/-- What stands against unmooring the module (R110, R305, R336, R395). -/
def unmoorModuleBars (s : State) : Bool :=
  s.mode ≠ .live || s.moor.addM || s.moor.qAddM || (s.mooredM && s.man.stage = 6) || ((s.moor.faultM || s.moor.startup) && !moduleFree s)

/-- UNMOOR_REQUEST: what it names leaves the commanded set and, of the fault moorings, what is in force (R304). A unit that
follows another takes it only for its own fault moorings (R255); its commanded set stays the Leader's (log 89). -/
def writeUnmoor (s : State) (d : Octets) : WOut :=
  let g := moorNames d
  let m := moorModule d
  let bars := !moorForm d || s.start.bench || (gList g).any (unmoorGroupBars s) || (m && unmoorModuleBars s)
  let fm := m && (s.moor.faultM || s.moor.startup)
  let role := s.twin.role.follows && (gMinus g s.moor.faultG ≠ 0 || (m && !fm))
  let s1 := s.modDict fun x => { x with lastUnmoor := d }
  let st : State :=
    if s.twin.role = .leader then
      { s1 with moor := { s1.moor with
          qRemG := s1.moor.qRemG ||| g, qRemM := s1.moor.qRemM || m, qRemFG := s1.moor.qRemFG ||| (g &&& s.moor.faultG),
          qRemFM := s1.moor.qRemFM || fm } }
    else
      let own := !s.twin.role.follows
      { s1 with moor := { s1.moor with
          remG := if own then s1.moor.remG ||| g else s1.moor.remG, remM := s1.moor.remM || (m && own), remFG := s1.moor.remFG ||| (g &&& s.moor.faultG),
          remFM := s1.moor.remFM || fm } }
  { codes := codeIf bars 8 ++ codeIf role 9, st := st, ift := moorInForce s }

/-! ## Module state (R306, R307) -/

/-- SOFT_RESTART. -/
def writeRestart (s : State) (v : Nat) : WOut :=
  .atBoundary (codeIf (v ≠ 1) 8) { s with start := { s.start with restart := true } }

/-- BENCH. -/
def writeBench (s : State) (v : Nat) : WOut :=
  .atBoundary (codeIf (1 < v) 8 ++ codeIf (v = 1 && s.twin.role ≠ .solo && s.twin.role ≠ .resync) 9)
    { s with start := { s.start with benchNext := some (v = 1) } }

/-- PARTITION_CONTROL; a suspension abandons a fence that waits (R361). -/
def writePartition (s : State) (v : Nat) : WOut :=
  let good := (v = 0 && s.core.part ≠ 0) || (v = 2 && s.core.part = 0)
  .atOnce (codeIf (!good) 8) { s with core := { s.core with
    part := BitVec.ofNat 2 v, fenceReg := if v = 2 then none else s.core.fenceReg } }

/-! ## The tide (R45, R77, R78, R257) -/

/-- A net as it would stand under another period. -/
def Net.atPeriod (n : Net) (per : Nat) : Net :=
  { n with head := listMod n.head 2 fun w => BitVec.ofNat 18 (w.toNat / 8 * 8 + per) }

/-- The active Manifest keeps the limits of a period (R43 to R45). -/
def periodFits (s : State) (per : Nat) : Bool :=
  let n := s.netA.atPeriod per
  !s.loaded || (limitsOk n && loadOk n && mirrorOk n)

/-- TIDE_PERIOD: on a Leader the boundary is two tides after the first mirroring that follows (R257). -/
def writePeriod (s : State) (v : Nat) : WOut :=
  let ok := v = 1 || v = 2 || v = 4
  let per : BitVec 3 := BitVec.ofNat 3 v
  let codes := codeIf (!ok || !periodFits s v) 8 ++ codeIf (s.twin.role ≠ .solo && s.twin.role ≠ .leader) 9
  if s.twin.role = .leader then
    let t := tideAdd s.now (if 3 ≤ s.tide.ph.toNat then 3 else 2)
    { codes := codes, ift := t,
      st := { s with tide := { s.tide with perNext := some (per, t) }, twin := { s.twin with pper := per, ptide := t } } }
  else .atBoundary codes { s with tide := { s.tide with perNext := some (per, tideAdd s.now 1) } }

/-- TIDE_BUDGET_REPORT: any value clears the report. -/
def writeBudget (s : State) : WOut := .atOnce [] { s with tide := { s.tide with budget := List.replicate 8 0 } }

/-! ## Events (R309, R318) -/

/-- A kept value is written (R272, R315). -/
def keptWrite (s : State) : State :=
  s.modDict fun x => { x with keptSince := some (x.keptSince.getD s.now) }

/-- A severity word keeps the minimum of R318 for local source j of block b. -/
def sevAllowed (b j : Nat) (v : Nat) : Bool :=
  let src := Config.baseOf b + j
  let def0 := (Config.sevDefault src).toNat
  Config.countOf b ≤ j || def0 < 2 || def0 ≤ v || (src ≤ 1 && v = 2)

/-- SEV_L or SEV_H keeps every minimum. -/
def sevWordAllowed (b : Nat) (hi : Bool) (w : Word) : Bool :=
  if hi then (List.range 7).all fun i => sevAllowed b (9 + i) (fld w (2 * i + 1) (2 * i))
  else (List.range 9).all fun i => sevAllowed b i (fld w (2 * i + 1) (2 * i))

/-- The severities of a block may be written: those of GWY and EVB are fixed (R182, R322). -/
def sevWritable (b : Nat) : Bool := b ≠ 1 && b ≠ 3

/-- SEV_H without its reserved bits. -/
def sevHigh (w : Word) : Word := w &&& 0o37777

/-- EVENT_SEVERITY. -/
def writeSeverity (s : State) (b : Nat) (d : Octets) : WOut :=
  let lo := BitVec.ofNat 18 (field d 0 3)
  let hi := sevHigh (BitVec.ofNat 18 (field d 3 3))
  let ok := sevWritable b && field d 0 3 < 262144 && field d 3 3 < 262144 && sevWordAllowed b false lo
    && sevWordAllowed b true hi
  .atBoundary (codeIf (!ok) 8) (keptWrite (s.modEv b fun e => { e with nextL := some lo, nextH := some hi }))

/-- EVENT_MASK. -/
def writeMask (s : State) (b : Nat) (d : Octets) : WOut :=
  let v := field d 0 3
  .atOnce (codeIf (b = 3 || 262143 < v) 8) (keptWrite (s.modEv b fun e => { e with mask := BitVec.ofNat 16 v }))

/-! ## Nodes and twin -/

/-- Change what the module keeps of node n. -/
def State.modNode (s : State) (n : Nat) (f : NodeRec → NodeRec) : State := { s with nodes := listMod s.nodes n f }

/-- NODE_REENROL: the node is withdrawn alone and offered again (R231). -/
def writeReenrol (s : State) (n v : Nat) : WOut :=
  .atOnce (codeIf (v ≠ 1 || !decide (n < s.netA.nnode)) 8)
    (s.modNode n fun x => { x with
      enrolled := false, enrolAt := none, withdraw := true, wantOffer := true, reenrol := true, unanswered := 0,
      slow := false, offerAt := none })

/-- TWIN_HOLD. -/
def writeHold (s : State) (v : Nat) : WOut :=
  .atOnce (codeIf (60 < v) 8) (keptWrite { s with twin := { s.twin with hold := BitVec.ofNat 9 v } })

/-! ## Fuses (R374, R380) -/

/-- FUSE_OVERRIDE. -/
def writeOverride (s : State) (d : Octets) : WOut :=
  let i := field d 0 2
  let v := field d 2 3
  let die : Die := if i < 512 then .A else .B
  .atBoundary (codeIf (1023 < i || 262143 < v || !ovrAllowed (i % 512)) 8)
    (s.modFuse die fun f => f.override (i % 512) (BitVec.ofNat 18 v))

/-- FUSE_OVERRIDE_CLEAR. -/
def writeOverrideClear (s : State) (v : Nat) : WOut :=
  .atBoundary (codeIf (v ≠ 1) 8) ((s.modFuse .A FuseDie.clearOvr).modFuse .B FuseDie.clearOvr)

/-- The operands of FUSE_PROGRAM lie in their ranges. -/
def programForm (d : Octets) : Bool :=
  1 ≤ field d 0 1 && field d 0 1 ≤ 7 && field d 1 1 ≤ 1 && field d 2 1 ≤ 31 && field d 3 1 ≤ 15 && field d 4 1 ≤ 17
    && field d 5 3 < 262144

/-- FUSE_PROGRAM while FUS is idle: a refused command gives 0x08; a burning one leaves its result for later. -/
def writeProgram (s : State) (k : Fin 8) (r : Fin 16) (d : Octets) : WOut :=
  let die : Die := if field d 1 1 = 0 then .A else .B
  let s1 := fuseCommand s (field d 0 1) die (field d 2 1) (field d 3 1) (field d 4 1) (BitVec.ofNat 18 (field d 5 3))
    (.entry k r)
  if !programForm d then .atOnce [8] s else .atOnce [] s1

/-- The result of the last FUSE_PROGRAM (R380). -/
def fuseResult (s : State) : State :=
  { s with fus := { s.fus with entRes := [BitVec.ofNat 8 s.fus.res.toNat, BitVec.ofNat 8 s.fus.pulses.toNat,
    BitVec.ofNat 8 s.fus.reason.toNat] } }

/-! ## Manifest management, power -/

/-- MANIFEST_STAGE: the command stands in bits 3:0 (R106). -/
def writeStage (s : State) (v : Nat) : WOut :=
  match stageCommand s (v % 16) with
  | some s1 => .atOnce [] s1
  | none => .atOnce [8] s

/-- MANIFEST_COMMIT (R109, R255). -/
def writeCommit (s : State) (k : Fin 8) (cnt : BitVec 32) (d : Octets) : WOut :=
  { codes := commitCodes s d ++ codeIf s.twin.role.follows 9, ift := commitForecast s,
    st := (commitAccept s d).modDict fun x => { x with commitBy := some (k, cnt) } }

/-- POWER_RETRY. -/
def writeRetry (s : State) (v : Nat) : WOut :=
  let side : Die := if v = 1 then .A else .B
  let ok := (v = 1 || v = 2) && s.pws.stage side = 5 && s.pws.feedOk side
  .atOnce (codeIf (!ok) 8) (stageRetry s side)

/-- STANDBY_TEST_NOW. -/
def writeTestNow (s : State) (v : Nat) : WOut := .atOnce (codeIf (v ≠ 1) 8) (testRequest s)

/-! ## Sessions and protection -/

/-- SESSION_CLOSE. -/
def writeClose (s : State) (j v : Nat) : WOut :=
  .atOnce (codeIf (v ≠ 1) 8) (match sesNums.find? fun k => k.val = j with
    | some k => endSession s k
    | none => s)

/-- AUTH_FAIL. -/
def writeAuthFail (s : State) (v : Nat) : WOut := .atOnce [] (s.modSvc fun x => { x with authFail := BitVec.ofNat 36 v })

/-- LEVEL_KEY. -/
def writeKey (s : State) (lvl : Nat) (d : Octets) : WOut :=
  .atBoundary [] (keptWrite (s.modDict fun x => { x with
    keysNext := (x.keysNext.filter fun y => y.1 ≠ lvl) ++ [(lvl, d)] }))

/-- A protection entry (R270): none of its octets malformed or weaker than its floor. -/
def writeProt (s : State) (e : Nat) (d : Octets) : WOut :=
  let j := e - 0o160000
  let bad := (List.range d.length).any fun k =>
    let b := d.getD k 0
    protBad b || protWeaker b (floorOf (32 * j + k))
  .atBoundary (codeIf bad 8) (keptWrite (s.modDict fun x => { x with
    protNext := (x.protNext.filter fun y => y.1 ≠ j) ++ [(j, d)] }))

/-! ## The rule of each entry -/

/-- What a write of a well-typed value to entry e at index i comes to. An entry without a rule of its own is never
writable: its floor has WNONE. -/
def entryRule (s : State) (k : Fin 8) (r : Fin 16) (sl : Slot) (e i : Nat) (d : Octets) : WOut :=
  let v := ofBe d
  match e with
  | 0o010001 => writeMoor s d
  | 0o010002 => writeUnmoor s d
  | 0o010003 => writeRestart s v
  | 0o010004 => writeBench s v
  | 0o010010 => writePartition s v
  | 0o020000 => writePeriod s v
  | 0o020002 => writeBudget s
  | 0o030002 => writeSeverity s i d
  | 0o030003 => writeMask s i d
  | 0o040020 => writeReenrol s i v
  | 0o050002 => writeHold s v
  | 0o076010 => writeOverride s d
  | 0o076011 => writeOverrideClear s v
  | 0o076020 => writeProgram s k r d
  | 0o100010 => writeStage s v
  | 0o100011 => writeCommit s k sl.cnt d
  | 0o120001 => writeRetry s v
  | 0o120003 => writeTestNow s v
  | 0o140020 => writeClose s i v
  | 0o140030 => writeAuthFail s v
  | 0o140200 => writeKey s i d
  | _ => if 0o160000 ≤ e && e ≤ 0o177777 then writeProt s e d else .atOnce [] s

/-! ## The stages of R284 for a WRITE -/

/-- The value has the length of its type, and no high bits beyond it (R267). -/
def typeOk (e : Nat) (d : Octets) : Bool :=
  match entOf e with
  | none => false
  | some x => d.length = x.len && (x.bits = 0 || ofBe d < 2 ^ x.bits)

/-- *Module moored* of R268 for an entry: Manifest load is a further state that the rule of MANIFEST_COMMIT names (R109). -/
def mooredFor (s : State) (e : Nat) : Bool := moduleMoored s || (e = 0o100011 && inLoad s)

/-- *Group moored* of R268 for a value. -/
def groupsMoored (s : State) (e : Nat) (d : Octets) : Bool :=
  let names := (e = 0o010001 || e = 0o010002) && field d 0 1 = 1
  mooredFor s e || (names && (gList (gsetOf (d.drop 1))).all fun g => gHas s.mooredG g)

/-- The codes of stage 3 but the entry's own rule: rights, the Helm, the moored conditions, the type. -/
def rightCodes (s : State) (k : Fin 8) (e : Nat) (d : Octets) : List Nat :=
  codeIf (!mayWrite s (s.sesLevel k.val) e) 4 ++ codeIf (s.svc.helm.holder ≠ some k) 5
    ++ codeIf (pMM (protOf s e) && !mooredFor s e) 6 ++ codeIf (pGM (protOf s e) && !groupsMoored s e d) 7
    ++ codeIf (!typeOk e d) 8

/-- The DICT record of an executed WRITE (R409, R411). -/
def recDict (s : State) (k lvl path : Nat) (q : Req) (status : Nat) : State :=
  let e := q.entry.toNat
  let hidden := e = 0o140200 || e = 0o100020
  let n := (q.data.length + 8) / 9
  let nc : Nat := if hidden then 0 else if 72 < q.data.length then 0x81 else n
  let cont : Octets := if hidden then [] else if 72 < q.data.length then (sha256 q.data).take 9 else q.data
  recMake s 3 false ([BitVec.ofNat 8 (k * 32 + lvl * 8 + path)] ++ be 3 e ++ be 3 q.index.toNat
    ++ [BitVec.ofNat 8 status, BitVec.ofNat 8 nc]) cont

/-- A WRITE that has taken effect completes, or with the FENCE flag waits until it is in force (R285, R287). -/
def writeDone (s : State) (k : Fin 8) (r : Fin 16) (sl : Slot) (ift : Tide) : State :=
  let s1 := s.modSes k.val fun x => { x with
    writes := (x.writes.filter fun w => !reached s.now w.2) ++ (if reached s.now ift then [] else [(sl.cnt, ift)]) }
  if sl.req.fence && !reached s.now ift then s1.setSlot k.val r.val { sl with st := .inForceAt s.now ift, ift := ift }
  else complete s1 k r.val 0 s.now ift []

/-- A WRITE executes under the rule given for its entry (R284, R285). -/
def writeBy (s : State) (k : Fin 8) (r : Fin 16) (sl : Slot) (rule : WOut) : State :=
  let q := sl.req
  let f := earlyStatus s q
  let codes := if f ≠ 0 then [f] else
    let c := rightCodes s k q.entry.toNat q.data
    if c.contains 8 then c else c ++ rule.codes
  let lvl := s.sesLevel k.val
  let path := s.sesPath k.val
  if codes.isEmpty then writeDone (recDict rule.st k.val lvl path q 0) k r sl rule.ift
  else
    let c := lowest codes
    finish (recDict s k.val lvl path q c) k r c []

/-- A FUSE_PROGRAM write: it waits for an idle FUS, and a burning command completes it when it ends (R380). -/
def writeFuse (s : State) (k : Fin 8) (r : Fin 16) (sl : Slot) : State :=
  if s.fus.busy then s
  else
    let q := sl.req
    let f := earlyStatus s q
    let codes := if f ≠ 0 then [f] else rightCodes s k q.entry.toNat q.data ++ codeIf (!programForm q.data) 8
    if !codes.isEmpty then
      let c := lowest codes
      finish (recDict s k.val (s.sesLevel k.val) (s.sesPath k.val) q c) k r c []
    else
      let s1 := (writeProgram s k r q.data).st
      if s1.fus.busy then
        let asked := some (s.sesLevel k.val, s.sesPath k.val, q)
        let s2 : State := { s1 with fus := { s1.fus with burn := s1.fus.burn.map fun x => { x with asked := asked } } }
        s2.setSlot k.val r.val { sl with st := .burning s.now }
      else
        let s2 := fuseResult s1
        let c := if s2.fus.res = 1 then 0 else 8
        finish (recDict s2 k.val (s.sesLevel k.val) (s.sesPath k.val) q c) k r c []

/-- The request of slot r when it is a WRITE that may execute and satisfies p. -/
def readyWrite (s : State) (k : Fin 8) (r : Fin 16) (p : Req → Bool) : Option Slot :=
  (readyOp s k r 1).filter fun sl => p sl.req

/-- A WRITE of an entry without detector operands. -/
def writeSlot (s : State) (k : Fin 8) (r : Fin 16) (sl : Slot) : State :=
  if sl.req.entry = 0o076020 then writeFuse s k r sl
  else writeBy s k r sl (entryRule s k r sl sl.req.entry.toNat sl.req.index.toNat sl.req.data)

/-- The WRITE of slot r executes when it names entry e and its value satisfies p. -/
def writeEntry (s : State) (k : Fin 8) (r : Fin 16) (e : BitVec 24) (p : Octets → Bool) : State :=
  match readyWrite s k r fun q => q.entry = e && p q.data with
  | some sl => writeSlot s k r sl
  | none => s

/-- Any value. -/
def anyValue (_ : Octets) : Bool := true

/-- The value is the number v. -/
def valueIs (v : Nat) (d : Octets) : Bool := ofBe d = v

/-- The first octet of the value is v. -/
def firstIs (v : Nat) (d : Octets) : Bool := !d.isEmpty && field d 0 1 = v

/-! ## The rows -/

/-- WRITE: any entry but EVENT_CLEAR and MANIFEST_DATA, whose rows carry what their detectors show. -/
def execWrite (k : Fin 8) (r : Fin 16) (s : State) : Host.Outcome State Fault Refusal :=
  match readyWrite s k r fun q => q.entry ≠ 0o030001 && q.entry ≠ 0o100020 with
  | some sl => .next (writeSlot s k r sl)
  | none => .next s

/-- PROTECTION_WRITE. -/
def execProtectionWrite (k : Fin 8) (r : Fin 16) (s : State) : Host.Outcome State Fault Refusal :=
  match readyWrite s k r fun q => 0o160000 ≤ q.entry.toNat && q.entry.toNat ≤ 0o177777 with
  | some sl => .next (writeSlot s k r sl)
  | none => .next s

/-- LEVEL_KEY_WRITE. -/
def execLevelKeyWrite (k : Fin 8) (r : Fin 16) (s : State) : Host.Outcome State Fault Refusal :=
  .next (writeEntry s k r 0o140200 anyValue)

/-- SESSION_CLOSE. -/
def execSessionClose (k : Fin 8) (r : Fin 16) (s : State) : Host.Outcome State Fault Refusal :=
  .next (writeEntry s k r 0o140020 anyValue)

/-- MOOR_COMMAND_GROUPS. -/
def execMoorCommandGroups (k : Fin 8) (r : Fin 16) (s : State) : Host.Outcome State Fault Refusal :=
  .next (writeEntry s k r 0o010001 (firstIs 1))

/-- MOOR_COMMAND_MODULE. -/
def execMoorCommandModule (k : Fin 8) (r : Fin 16) (s : State) : Host.Outcome State Fault Refusal :=
  .next (writeEntry s k r 0o010001 (firstIs 2))

/-- UNMOOR_REQUEST_GROUPS. -/
def execUnmoorRequestGroups (k : Fin 8) (r : Fin 16) (s : State) : Host.Outcome State Fault Refusal :=
  .next (writeEntry s k r 0o010002 (firstIs 1))

/-- UNMOOR_REQUEST_MODULE. -/
def execUnmoorRequestModule (k : Fin 8) (r : Fin 16) (s : State) : Host.Outcome State Fault Refusal :=
  .next (writeEntry s k r 0o010002 (firstIs 2))

/-- BENCH_ENTER. -/
def execBenchEnter (k : Fin 8) (r : Fin 16) (s : State) : Host.Outcome State Fault Refusal :=
  .next (writeEntry s k r 0o010004 (valueIs 1))

/-- BENCH_LEAVE. -/
def execBenchLeave (k : Fin 8) (r : Fin 16) (s : State) : Host.Outcome State Fault Refusal :=
  .next (writeEntry s k r 0o010004 (valueIs 0))

/-- PARTITION_RESUME. -/
def execPartitionResume (k : Fin 8) (r : Fin 16) (s : State) : Host.Outcome State Fault Refusal :=
  .next (writeEntry s k r 0o010010 (valueIs 0))

/-- PARTITION_SUSPEND. -/
def execPartitionSuspend (k : Fin 8) (r : Fin 16) (s : State) : Host.Outcome State Fault Refusal :=
  .next (writeEntry s k r 0o010010 (valueIs 2))

/-- TIDE_PERIOD_WRITE. -/
def execTidePeriodWrite (k : Fin 8) (r : Fin 16) (s : State) : Host.Outcome State Fault Refusal :=
  .next (writeEntry s k r 0o020000 anyValue)

/-- TIDE_BUDGET_REPORT_CLEAR. -/
def execTideBudgetReportClear (k : Fin 8) (r : Fin 16) (s : State) : Host.Outcome State Fault Refusal :=
  .next (writeEntry s k r 0o020002 anyValue)

/-- NODE_REENROL. -/
def execNodeReenrol (k : Fin 8) (r : Fin 16) (s : State) : Host.Outcome State Fault Refusal :=
  .next (writeEntry s k r 0o040020 anyValue)

/-- EVENT_SEVERITY_ENTRY. -/
def execEventSeverityEntry (k : Fin 8) (r : Fin 16) (s : State) : Host.Outcome State Fault Refusal :=
  .next (writeEntry s k r 0o030002 anyValue)

/-- POWER_RETRY. -/
def execPowerRetry (k : Fin 8) (r : Fin 16) (s : State) : Host.Outcome State Fault Refusal :=
  .next (writeEntry s k r 0o120001 anyValue)

/-- STANDBY_TEST_NOW. -/
def execStandbyTestNow (k : Fin 8) (r : Fin 16) (s : State) : Host.Outcome State Fault Refusal :=
  .next (writeEntry s k r 0o120003 anyValue)

/-- MANIFEST_STAGE_OPEN. -/
def execManifestStageOpen (k : Fin 8) (r : Fin 16) (s : State) : Host.Outcome State Fault Refusal :=
  .next (writeEntry s k r 0o100010 fun d => ofBe d % 16 = 1)

/-- MANIFEST_STAGE_CLOSE. -/
def execManifestStageClose (k : Fin 8) (r : Fin 16) (s : State) : Host.Outcome State Fault Refusal :=
  .next (writeEntry s k r 0o100010 fun d => ofBe d % 16 = 2)

/-- MANIFEST_STAGE_DISCARD. -/
def execManifestStageDiscard (k : Fin 8) (r : Fin 16) (s : State) : Host.Outcome State Fault Refusal :=
  .next (writeEntry s k r 0o100010 fun d => ofBe d % 16 = 3)

/-- MANIFEST_COMMIT. -/
def execManifestCommit (k : Fin 8) (r : Fin 16) (s : State) : Host.Outcome State Fault Refusal :=
  .next (writeEntry s k r 0o100011 anyValue)

/-- MANIFEST_DATA: the bits that do not clear on each device, and whether both dies read back what it holds (R106, log 71). -/
def execManifestData (k : Fin 8) (r : Fin 16) (stuckA stuckB : Octets) (readBack : Bool) (s : State) :
    Host.Outcome State Fault Refusal :=
  match readyWrite s k r fun q => q.entry = 0o100020 with
  | some sl =>
    let x := stageData s sl.req.index.toNat sl.req.data (s.sesPath k.val) sl.tap stuckA stuckB readBack
    .next (writeBy s k r sl (.atOnce (codeIf (x.1 ≠ 0) x.1) x.2))
  | none => .next s

/-- FUSE_OVERRIDE. -/
def execFuseOverride (k : Fin 8) (r : Fin 16) (s : State) : Host.Outcome State Fault Refusal :=
  .next (writeEntry s k r 0o076010 anyValue)

/-- SOFT_RESTART: the write; the module starts again at the tide boundary (R306). -/
def execSoftRestart (k : Fin 8) (r : Fin 16) (s : State) : Host.Outcome State Fault Refusal :=
  .next (writeEntry s k r 0o010003 (valueIs 1))

end Sys2Proof.Machine
end

