-- ==== Sys2Proof/Machine/Events.lean ====
section
/-!
DEFINITION. Commands of detectors and event registers: firing, the signal of the other die, parity faults, settling, block
resets, clearing, severities (R316 to R337, R401), uncorrectable words and scrubbing (R20, R21), island supervisors (R26).
-/

namespace Sys2Proof.Machine

/-! ## Firing and settling -/

/-- EVENT_SOURCE_FIRES: `gs` is the affected set its row names (R320), where the state does not show it, and `subj` the
subject of its record. What front end B finds of sources 98 and 99 the B-die's own reaction table answers too (R205). -/
def execEventSourceFires (src : Fin 144) (gs : GSet) (subj : BitVec 32) (s : State) : Host.Outcome State Fault Refusal :=
  let s1 := fire (lioFound s src.val subj) src.val (affected s src.val gs subj) subj
  .next (if src = 98 || src = 99 then reactB s1 else s1)

/-- MOOR_SIGNAL_RECEIVED by die d (R330). -/
def execMoorSignalReceived (d : Die) (s : State) : Host.Outcome State Fault Refusal := .next (moorSignal s d)

/-- A parity mismatch in an event register of block b: PARERR, FIRST where it held none, a record, and the die moors (R327). -/
def parityFault (s : State) (b : Nat) : State :=
  let d : Die := if b = 3 then .B else .A
  let s1 := s.modEv b fun e =>
    let e := { e with parerr := true }
    if e.fSrc = 0o377 then
      { e with fSev := 3, fConseq := false, fSrc := 0o376, fTide := s.now, fTick := s.tide.tick }
    else e
  let s2 := moorDecide (recMake s1 2 (b = 3) [0xFE, 3, BitVec.ofNat 8 b] []) d none
  if b = 3 then fire1 s2 43 else moorEffects s2

/-- REGISTER_PARITY_FAULT: on the B-die it raises EVB source 43 as well (R327). -/
def execRegisterParityFault (b : Fin 18) (s : State) : Host.Outcome State Fault Refusal :=
  if s.runs (if b = 3 then .B else .A) then .next (parityFault s b.val) else .next s

/-- SETTLE_END: the settle time of a unit has run out (R328). -/
def execSettleEnd (u : RstUnit) (s : State) : Host.Outcome State Fault Refusal :=
  .next { s with settle := s.settle.filter fun x => x.1 ≠ u || !reached s.now x.2 }

/-- The source that reset a unit, with its affected set and its subject. -/
def resetTrigger (s : State) (u : RstUnit) : Nat × GSet × BitVec 32 :=
  match u with
  | .fpe n => (55 + 8 * n.val, s.netA.portGroups n.val, 0)
  | .mgp => (93, 0, 0)
  | .svc => (143, 0, s.svc.failPath.setWidth 32)
  | .pws .A => (132, 0, 0)
  | .pws .B => (133, 0, 0)

/-- What a reset leaves of a port engine: every field at its reset value (R13) but the counters, which count since power-up
(R237). -/
def Port.afterReset (p : Port) : Port :=
  { late := p.late, oot := p.oot, siga := p.siga, sigb := p.sigb, sigbLive := p.sigbLive, hdr := p.hdr, dup := p.dup,
    cdiv := p.cdiv, tdiv := p.tdiv, txc := p.txc, txNow := p.txNow }

/-- A block comes out of its reset empty, with no session and no partial message (R401), its registers at their reset values
(R13). -/
def blockRestart (s : State) (u : RstUnit) : State :=
  let out (s : State) : State := { s with resets := s.resets.filter fun x => x.1 ≠ u }
  let whole (p : Client → Bool) (s : State) : State := s.modIntake fun i => { i with asm := i.asm.filter fun x => !p x.src }
  match u with
  | .fpe n =>
    whole (fun c => match c with
      | .field p _ => p = n
      | _ => false) ((out s).modPort n.val Port.afterReset)
  | .svc => whole (fun _ => true) <| (out (endSessions s fun _ => true)).modSvc fun v => { v with
      txoff := 0, txlen := 0, rxbase := 0, rxsize := 0, rxhead := 0, rxtail := 0, busy := false, rxovr := false,
      txerr := false, inbox := [], outQ := [], frags := [], ringIn := [] }
  | _ => out s

/-- BLOCK_RESET_END: the self-check passes, or fires the triggering source again (R328, R401). -/
def execBlockResetEnd (u : RstUnit) (ok : Bool) (s : State) : Host.Outcome State Fault Refusal :=
  if !s.unitDown u then .next s
  else if ok then .next (blockRestart s u)
  else
    let x := resetTrigger s u
    .next (fire s x.1 x.2.1 x.2.2)

/-! ## Clearing (R333, R334) -/

/-- The sources whose cause is stated as a condition; every other cause is stated as an occurrence (R333, log 45). -/
def isCondition (src : Nat) : Bool :=
  [5, 18, 80, 81, 90, 94, 97, 98, 99, 100, 101, 102, 105, 107, 108, 109, 110, 112, 126, 127, 128, 129, 130, 131,
    136].contains src || (48 ≤ src && src < 80 && (src % 8 = 0 || src % 8 = 1))

/-- A lane of a field port for a link source. -/
def linkDown (s : State) (src : Nat) : Bool :=
  let p := s.port ((src - 48) / 8)
  if src % 8 = 0 then !p.upA else !p.upB

/-- The condition of a source as the state shows it. -/
def conditionHolds (s : State) (src : Nat) : Bool :=
  if 48 ≤ src && src < 80 then linkDown s src
  else match src with
    | 80 => !s.twin.upA
    | 81 => !s.twin.upB
    | 94 => s.lio.disc.any (4 ≤ ·)
    | 99 => s.lio.linkDown
    | 100 => s.lio.onAgainst.any (5 ≤ ·) || s.lio.onAgainstB.any (5 ≤ ·)
    | 101 => s.lio.offAgainst.any (5 ≤ ·) || s.lio.offAgainstB.any (5 ≤ ·)
    | 102 => s.lio.split.any (5 ≤ ·)
    | 105 => s.lio.qovl ≠ 0
    | 107 => s.lio.underV 0
    | 108 => s.lio.underV 8
    | 109 => s.lio.overV 0 || s.lio.overV 8
    | 126 => !s.fus.a.weak.isEmpty
    | 127 => s.fus.a.used.copiesDiffer
    | 128 => s.fus.a.used.spareUsed
    | 129 => s.fus.a.used.unresolved
    | 130 => !s.pws.fokA
    | 131 => !s.pws.fokB
    | 136 => s.pws.hold
    | _ => false

/-- The cause of local source j of block b persists (R333): its condition holds, as the state or its detector (`found`)
shows; an occurrence of this tide; or as the block's own rules extend it. -/
def causePersists (s : State) (b j : Nat) (found : BitVec 16) : Bool :=
  let src := Config.baseOf b + j
  lioPersists s src ||
    (if isCondition src then found.getLsbD j || conditionHolds s src
     else ((s.evOf b).last.getD j none) = some s.now)

/-- The named sources of a block. -/
def namedSources (b : Nat) (bits : BitVec 16) : List Nat :=
  (List.range (Config.countOf b)).filter fun j => bits.getLsbD j

/-- A CLEAR is refused whole when the cause of any source it names persists, and always for EVB (R309, R333). -/
def clearRefused (s : State) (b : Nat) (bits found : BitVec 16) : Bool :=
  b = 3 || (namedSources b bits).any fun j => causePersists s b j found

/-- An accepted CLEAR. -/
def clearDo (s : State) (b : Nat) (bits : BitVec 16) : State :=
  (namedSources b bits).foldl (fun s j => lioCleared s (Config.baseOf b + j)) (evUnset s b bits 1)

/-- EVENT_CLEAR: a write of a block's CLEAR register. -/
def execEventClear (b : Fin 18) (bits found : BitVec 16) (s : State) : Host.Outcome State Fault Refusal :=
  if !s.runs .A || clearRefused s b.val bits found then .next s else .next (clearDo s b.val bits)

/-- EVENT_CLEAR_ENTRY: a WRITE of EVENT_CLEAR acts as the block's CLEAR register (R309). -/
def execEventClearEntry (k : Fin 8) (r : Fin 16) (found : BitVec 16) (s : State) : Host.Outcome State Fault Refusal :=
  match readyWrite s k r fun q => q.entry = 0o030001 with
  | some sl =>
    let b := sl.req.index.toNat
    let v := field sl.req.data 0 3
    let bits := BitVec.ofNat 16 v
    let bad := 262143 < v || clearRefused s b bits found
    .next (writeBy s k r sl (.atOnce (codeIf bad 8) (clearDo s b bits)))
  | none => .next s

/-- EVB_SELF_CLEAR: the B-die clears each bit whose cause has been absent for 64 tides; `found` is what its detectors
still find (R334). -/
def execEvbSelfClear (found : BitVec 16) (s : State) : Host.Outcome State Fault Refusal :=
  if !s.runs .B then .next s
  else
    let old (j : Nat) : Bool := (s.evb.last.getD j none).any fun t => reached s.now (tideAdd t 65)
    let bits : BitVec 16 := bitsOf 16 fun j => s.evb.src.getLsbD j && !found.getLsbD j && old j
    let last := s.evb.last.mapIdx fun j t => if found.getLsbD j then some s.now else t
    .next (evUnset { s with evb := { s.evb with last := last } } 3 bits 2)

/-! ## Severities and stamps -/

/-- SEVERITY_WRITE: SEV_L or SEV_H of a block (R182, R318). -/
def execSeverityWrite (b : Fin 18) (hi : Bool) (v : Word) (s : State) : Host.Outcome State Fault Refusal :=
  let w := if hi then sevHigh v else v
  if !s.runs .A || !sevWritable b.val || !sevWordAllowed b.val hi w then .next s
  else .next (s.modEv b.val fun e => if hi then { e with nextH := some w } else { e with nextL := some w })

/-- A read of FIRST latches the stamps (R316); the EVB window shows the mirror. -/
def firstRead (s : State) (b : Nat) : State × Word :=
  let e := s.shown b
  ({ s with ev := listMod s.ev b fun e => { e with snapTide := e.fTide, snapTick := e.fTick } }, e.firstWord)

/-- EVENT_FIRST_READ. -/
def execEventFirstRead (b : Fin 18) (s : State) : Host.Outcome State Fault Refusal :=
  let x := firstRead s b.val
  .next (x.1.busReturns x.2)

/-- A read of NUM_L or CNUM_L latches the high word (R75). -/
def numRead (s : State) (committed : Bool) : State × Word :=
  if committed then ({ s with tide := { s.tide with snapCnum := highW s.tide.cnum } }, lowW s.tide.cnum)
  else ({ s with tide := { s.tide with snapNum := highW s.tide.num } }, lowW s.tide.num)

/-- TIDE_NUM_READ. -/
def execTideNumRead (committed : Bool) (s : State) : Host.Outcome State Fault Refusal :=
  let x := numRead s committed
  .next (x.1.busReturns x.2)

/-! ## Memory errors (R20, R21) -/

/-- Where a read finds an uncorrectable word: a die's memory word, or an engine's own buffer with the source it raises, its
affected set and its subject (R238, R298, R323). -/
def ueSource (s : State) : UeSite → (Die × Nat) ⊕ (Nat × GSet × BitVec 32)
  | .dataSram a => .inl (.A, a.toNat)
  | .instrSram a => .inl (.A, a.toNat)
  | .workingBank p => .inl (.A, workBase + p.toNat)
  | .bTable a => .inl (.B, a.toNat)
  | .bPoint p => .inl (.B, p.toNat)
  | .fpeBuffer n => .inr (55 + 8 * n.val, s.netA.portGroups n.val, 0)
  | .mgpBuffer => .inr (93, 0, 0)
  | .svcBuffer path => .inr (143, 0, path.setWidth 32)

/-- Two cells of a row have flipped, unless it is uncorrectable already. -/
def rowSpoil (s : State) (d : Die) (a : Nat) : State := if s.rowBad d a then s else s.rowFlip d a (3 ^^^ s.rowMask d a)

/-- UNCORRECTABLE_WORD: an event of the reading block; the word stays unusable until it is written again (R19, R20). -/
def execUncorrectableWord (site : UeSite) (s : State) : Host.Outcome State Fault Refusal :=
  match ueSource s site with
  | .inl x => if rowExists x.1 x.2 && s.runs x.1 then .next (rowReport (rowSpoil s x.1 x.2) x.1 x.2) else .next s
  | .inr x => .next (fire s x.1 x.2.1 x.2.2)

/-- The scrubber of a die goes on by 1,024 words in each memory. -/
def scrubAhead (c : ScrubSt) (d : Die) : ScrubSt :=
  let go (p n : Nat) : Nat := (p + 1024) % n
  match d with
  | .A => { c with data := go c.data 4194304, instr := go c.instr 262144, declA := go c.declA 1048576 }
  | .B => { c with table := go c.table 4194304, declB := go c.declB 1048576 }

/-- The words a die's scrubber reads next: 1,024 from each of these. -/
def scrubFrom (c : ScrubSt) (d : Die) : List Nat :=
  match d with
  | .A => [c.data, declBase + c.declA, instrBase + c.instr]
  | .B => [c.table, declBase + c.declB]

/-- The scrubber reads 1,024 words from address a: correctable ones are written back, the others reported (R20, R21). -/
def scrubAt (s : State) (d : Die) (a : Nat) : State :=
  (s.rowsIn d a (a + 1024)).foldl (fun s r => if maskBad r.2 then rowReport s d r.1 else s.rowWrite d r.1) s

/-- How many of the next 1,024 words the B-die's scrubber corrects in table SRAM. -/
def scrubFixes (s : State) : Nat :=
  countIf (s.rowsIn .B s.scrub.table (s.scrub.table + 1024)) fun r => !maskBad r.2

/-- SCRUB in the mirroring and guard phases; `flips` are cells that have flipped in the die's rows by now. More than 64 words of
table SRAM corrected within 4,096 tides raise source 46 (R322). -/
def execScrub (d : Die) (flips : List (BitVec 24 × BitVec 24)) (s : State) : Host.Outcome State Fault Refusal :=
  if !s.runs d || !(s.tide.ph = 3 || s.tide.ph = 5) then .next s
  else
    let s0 := flips.foldl (fun s f => s.rowFlip d f.1.toNat f.2) s
    let n := scrubFixes s0
    let s1 := (scrubFrom s0.scrub d).foldl (fun s a => scrubAt s d a) s0
    let s2 : State := { s1 with scrub := scrubAhead s1.scrub d }
    match d with
    | .A => .next s2
    | .B =>
      let ce := (s2.scrub.ce.filter fun x => later (tideAdd x.1 4096) s.now) ++ (if n = 0 then [] else [(s.now, n)])
      let sum := ce.foldl (fun a x => a + x.2) 0
      .next (fireIf { s2 with scrub := { s2.scrub with ce := ce } } (64 < sum && n ≠ 0) 46)

/-! ## Island supervisors (R26) -/

/-- The A-die in reset: its registers at their reset values (R13); what stands on the B-die stays. -/
def holdA (s : State) : State :=
  let h := holdDies s
  { h with b := s.b, evb := s.evb, pws := { h.pws with released := true },
           fus := { a := (burnCut s).fus.a.restarted, b := (burnCut s).fus.b }, rows := (s.rowsWrite .A 0 (2 ^ 24)).rows,
           lio := { cmdB := s.lio.cmdB, wantB := s.lio.wantB, inB := s.lio.inB, rbB := s.lio.rbB } }

/-- The frames that the B-die's taps keep are gone (R106). -/
def tapsLost (s : State) : State :=
  let inMsg (m : InMsg) : InMsg := { m with tap := none }
  let slot (x : Slot) : Slot := { x with tap := none }
  { s with
    intake := { s.intake with
      landedSvc := s.intake.landedSvc.map fun c => { c with tap := none },
      asm := s.intake.asm.map fun x => { x with parts := x.parts.map fun p => (p.1, p.2.1, none) } },
    svc := { s.svc with
      inbox := s.svc.inbox.map inMsg,
      ses := s.svc.ses.map fun o => o.map fun x => { x with slots := x.slots.map fun o => o.map slot } } }

/-- The B-die in reset. -/
def holdB (s0 : State) : State :=
  let s := tapsLost s0
  let s1 := dropCommands { s with b := {}, evb := EvBlock.initial 3, ab := [] } .B
  let s2 := if s1.fus.burn.any fun x => x.die = .B then burnCut s1 else s1
  { s2 with
    fus := { s2.fus with b := s2.fus.b.restarted }, rows := (s.rowsWrite .B 0 (2 ^ 24)).rows,
    bells := { s2.bells with edgesB := 0, edgeB := false } }

/-- The rail flag of an island. -/
def State.rail (s : State) (d : Die) : Bool :=
  match d with
  | .A => s.pws.railA
  | .B => s.pws.railB

/-- Set the rail flag of an island. -/
def setRail (s : State) (d : Die) (v : Bool) : State :=
  s.modPws fun p => match d with
    | .A => { p with railA := v }
    | .B => { p with railB := v }

/-- ISLAND_RAIL_FAULT: the supervisor holds its die in reset. -/
def execIslandRailFault (d : Die) (s : State) : Host.Outcome State Fault Refusal :=
  let s1 := setRail s d true
  if !s.runs d then .next s1
  else match d with
    | .A => .next (holdA s1)
    | .B => .next (holdB s1)

/-- The B-die let go past Fuse read: what it sensed at power-up stands (R374); where it has sensed nothing yet, it does so
now, and without its identity the module is Halted (R368). -/
def resumeB (s : State) : State :=
  if s.fus.b.sensed || s.mode = .fuseRead || s.mode = .off then s
  else
    let s1 := s.modFuse .B FuseDie.sense
    senseSources (if s1.fus.b.latched.identity .B then s1 else { s1 with mode := .halted }) .B

/-- ISLAND_RAIL_RESTORED: the supervisor lets its die go. The A-die starts in Fuse read; the B-die waits unloaded (log 46).
-/
def execIslandRailRestored (d : Die) (s : State) : Host.Outcome State Fault Refusal :=
  let s1 := setRail s d false
  if !s.rail d || !s.pws.released then .next s1
  else match d with
    | .A => .next { s1 with mode := .fuseRead, a := { s1.a with inReset := false } }
    | .B =>
      .next (resumeB { s1 with b := { s1.b with inReset := false } })

end Sys2Proof.Machine
end

