-- ==== Sys2Proof/Machine/Lines.lean ====
section
/-!
DEFINITION. Lane states of the field ports and the Hawser, port M, IEEE 1588 (R67 to R70, R207, R265), and the Bell relay
driver (R332).
-/

namespace Sys2Proof.Machine

/-! ## Lanes -/

/-- LANE_DOWN: `present` says whether a transceiver is in the cage. -/
def execLaneDown (p : Fin 4) (l : Lane) (present : Bool) (s : State) : Host.Outcome State Fault Refusal :=
  if !s.runs .A then .next s
  else
    let was := (s.port p.val).up l
    let s1 := s.modPort p.val fun x => match l with
      | .A => { x with upA := false, presA := present }
      | .B => { x with upB := false, presB := present }
    .next (fireIf s1 was (48 + 8 * p.val + (match l with
      | .A => 0
      | .B => 1)))

/-- LANE_UP: a supported transceiver with link; a port engine in reset has no lane. -/
def execLaneUp (p : Fin 4) (l : Lane) (s : State) : Host.Outcome State Fault Refusal :=
  if !s.runs .A || s.unitDown (.fpe p) then .next s
  else
    .next (s.modPort p.val fun x => match l with
      | .A => { x with upA := true, presA := true }
      | .B => { x with upB := true, presB := true })

/-- Change the twin state. -/
def State.modTwin (s : State) (f : TwinSt → TwinSt) : State := { s with twin := f s.twin }

/-- A Hawser lane is up. -/
def TwinSt.up (t : TwinSt) (l : Lane) : Bool :=
  match l with
  | .A => t.upA
  | .B => t.upB

/-- HAWSER_LINK_DOWN. -/
def execHawserLinkDown (l : Lane) (present : Bool) (s : State) : Host.Outcome State Fault Refusal :=
  if !s.runs .A then .next s
  else
    let was := s.twin.up l
    let s1 := s.modTwin fun t => match l with
      | .A => { t with upA := false, presA := present }
      | .B => { t with upB := false, presB := present }
    .next (fireIf s1 was (match l with
      | .A => 80
      | .B => 81))

/-- HAWSER_LINK_UP. -/
def execHawserLinkUp (l : Lane) (s : State) : Host.Outcome State Fault Refusal :=
  if !s.runs .A then .next s
  else
    .next (s.modTwin fun t => match l with
      | .A => { t with upA := true, presA := true }
      | .B => { t with upB := true, presB := true })

/-- MGP_LINK_LOSS. -/
def execMgpLinkLoss (s : State) : Host.Outcome State Fault Refusal := .next (fire1 s 90)

/-! ## IEEE 1588 -/

/-- The field lanes carry IEEE 1588 messages from the end of Manifest load (R397), but for a unit that a fault has moored
(R251). -/
def ptpRuns (s : State) : Bool := s.runs .A && !s.stopsSending && (s.mode = .translate || s.mode = .enrol || s.mode = .live)

/-- The lanes a message may start on: up, their port engine not in reset, and no guard phase (R60). -/
def ptpLanes (s : State) : List (Fin 4 × Lane) :=
  if s.tide.ph = 5 || !ptpRuns s then []
  else fieldLanes.filter fun x => (s.port x.1.val).up x.2 && !s.unitDown (.fpe x.1)

/-- PTP time in ns: tide t starts at t times the period (R67), and an instant counts from the start of its tick (log 66). -/
def ptpTime (s : State) : Nat := (s.now.toNat * 4096 + s.tide.tick.toNat) * s.per * 1000000 / 4096

/-- What the message sent now bears (R67). -/
def ptpHead (s : State) : PtpHead :=
  { etherType := 0x88F7, pcp := 7, domain := s.netA.domain, arb := true, time := ptpTime s }

/-- Send a message on some lanes; lane A's frames are counted (R237). -/
def ptpOn (s : State) (ls : List (Fin 4 × Lane)) (m : Ptp) : State :=
  (ls.filter fun x => x.2 = .A).foldl (fun s x => s.modPort x.1.val fun p => { p with txNow := sat18 p.txNow })
    (s.sendAll (ls.map fun x => .ptp (.field x.1 x.2) (ptpHead s) m))

/-- Send a message on every lane that may start one. -/
def ptpSend (s : State) (m : Ptp) : State := ptpOn s (ptpLanes s) m

/-- priority1 of a role (R69). -/
def Role.priority1 : Role → BitVec 8
  | .solo => 64
  | .leader => 64
  | .follower => 128
  | .isoSending => 250
  | .isoSilent => 250
  | .resync => 255

/-- PTP_SYNC_SEND: a one-step Sync at logSyncInterval -4 on each lane (R67). -/
def execPtpSyncSend (s : State) : Host.Outcome State Fault Refusal :=
  .next (ptpSend s (.sync (-4)))

/-- PTP_ANNOUNCE_SEND (R67, R69). -/
def execPtpAnnounceSend (s : State) : Host.Outcome State Fault Refusal :=
  .next (ptpSend s (.announce 0 3 s.twin.role.priority1 248))

/-- PTP_DELAY_REQ_RECEIVED: answered on the same lane. -/
def execPtpDelayReqReceived (p : Fin 4) (l : Lane) (ident : BitVec 80) (sequence : BitVec 16) (s : State) :
    Host.Outcome State Fault Refusal :=
  if (ptpLanes s).contains (p, l) then
    .next (ptpOn s [(p, l)] (.delayResp ident sequence))
  else .next s

/-- What TIDE.TWOFF shows of an offset: a free value outside its signed 18 bits (R75, log 78). -/
def twoffOf (off : Int) : Word :=
  if -131072 ≤ off && off ≤ 131071 then BitVec.ofInt 18 off else Config.twoffBeyond off

/-- HAWSER_SYNC_RECEIVED: `off` is the Follower's offset in 8 ns cycles; more than 2 µs is 250 cycles (R70, R75). -/
def execHawserSyncReceived (off : Int) (s : State) : Host.Outcome State Fault Refusal :=
  if s.runs .A && s.twin.role = .follower then
    .next (fireIf { s with tide := { s.tide with twoff := twoffOf off } } (250 < off.natAbs) 5)
  else .next s

/-- HAWSER_SYNC_SEND by a Leader at logSyncInterval -7 (R70). -/
def execHawserSyncSend (s : State) : Host.Outcome State Fault Refusal :=
  if ptpRuns s && s.twin.role = .leader && s.tide.ph ≠ 5 then
    .next (s.sendAll (([Lane.A, Lane.B].filter s.twin.up).map fun l =>
      .ptp (.hawser l) (ptpHead s) (.sync (-7))))
  else .next s

/-! ## The Bell relays (R332) -/

/-- What makes the driver release the relays, 0.25 tide after a tide start (R332): a Bell made no edge at it, which is 1.25 tides
after its last one, or both hold the same level; and with the A-die in reset no tide starts. Both dies' period codes are the
one of TIDE.PERIOD (log 88). -/
def bellsFail (s : State) : Bool :=
  !s.tide.running || !s.bells.edgeA || !s.bells.edgeB || s.a.bell = s.b.bell

/-- BELL_RELAY_RELEASE: 0.25 tide into the tide the driver releases the relays and BCON opens, when the Bells call for it. -/
def execBellRelayRelease (s : State) : Host.Outcome State Fault Refusal :=
  if !s.bells.relay || !bellsFail s then .next s
  else
    let s1 := if s.tide.running then reachTick s 500 else s
    .next { s1 with bells := { s1.bells with relay := false, bcon := false, edgesA := 0, edgesB := 0 } }

end Sys2Proof.Machine
end

