-- ==== Sys2Proof/Machine/Intake.lean ====
section
/-!
DEFINITION. Field lane receipt: what each die checks of a copy (R217), how copies land and are classified (R51 to R53, R220,
R226), intake close and the close list (R158, R163, R219, R260), and the ends of both channels' evaluation (R56).
-/

namespace Sys2Proof.Machine

/-! ## Phases -/

/-- Keep the peak of a position in TIDE_BUDGET_REPORT (R78). -/
def budgetPeak (s : State) (pair : Nat) (v : BitVec 16) : State :=
  { s with tide := { s.tide with budget := listMod s.tide.budget pair fun x => if x < v then v else x } }

/-- Count in a pair of TIDE_BUDGET_REPORT (R78). -/
def budgetCount (s : State) (pair : Nat) : State :=
  { s with tide := { s.tide with budget := listMod s.tide.budget pair sat16 } }

/-- An instant of the tick in progress as a position, rounded up (R78): it lies within the tick (log 65). -/
def tickPos (s : State) : BitVec 16 := s.tide.tick.setWidth 16 + 1

/-- The end of a phase as a position: the place R49 gives it, rounded up, unless commands have run the tick past it. -/
def phaseEnd (s : State) (us : Nat) : BitVec 16 :=
  if Config.tickAt us < s.tide.tick then tickPos s else Config.tickUp us

/-! ## Checks of a received copy (R217) -/

/-- What one die finds of its copy. -/
inductive Judged where
  | good (f : Lst)
  | badSig (f : Lst)
  | bad (node : Nat)
  deriving DecidableEq, Repr

/-- SERVICE and ENROL frames that count together for the rate check, in this tide. -/
def rateOf (s : State) (k : RateKey) : Nat := ((s.intake.rate.find? fun x => x.1 = k).map (·.2)).getD 0

/-- One more of them. -/
def rateAdd (s : State) (k : RateKey) : State :=
  { s with intake := { s.intake with rate := (s.intake.rate.filter fun x => x.1 ≠ k) ++ [(k, rateOf s k + 1)] } }

/-- The salt of a kind (R215). -/
def saltOf (s : State) (kind : BitVec 4) : Octets := if kind = 3 then [0, 0, 0, 0] else s.salt

/-- The signature a die checks. -/
def sigHolds (d : Die) (salt : Octets) (f : Lst) : Bool :=
  match d with
  | .A => f.sigA = sigAOf salt f
  | .B => f.sigB = sigBOf salt f

/-- Every check of R217 but the signature. -/
def headerHolds (s : State) (n : Net) (d : Die) (p : Fin 4) (l : Lane) (f : Lst) : Bool :=
  let node := f.src.toNat
  (f.kind = 0 || f.kind = 2 || f.kind = 3) && f.lane = l
    && node < n.nnode && n.nodePort node = p.val
    && (f.dst = n.zone || (f.dst = 0o777777 && f.kind = 3 && f.payload.headD 1 = 0))
    && (f.kind ≠ 0 || (s.enrolledNow node && !f.unit && f.subseq = 0 && f.payload.length = n.inputLen node))
    && (f.kind = 0 || rateOf s { die := d, port := p, lane := l, node := node } < 4)

/-- A die checks its own copy of a frame. -/
def judgeCopy (s : State) (d : Die) (p : Fin 4) (l : Lane) (os : Octets) : Judged :=
  let n := (s.die d).net.getD Net.empty
  match lstParse n.vid n.etype 210 os with
  | none => .bad 0
  | some f =>
    if !headerHolds s n d p l f then .bad f.src.toNat
    else if sigHolds d (saltOf s f.kind) f then .good f else .badSig f

/-- Put a frame on the Gangway from a die. -/
def gwSend (s : State) (d : Die) (x : GwFrame) : State :=
  match d with
  | .A => { s with ab := s.ab ++ [x] }
  | .B => { s with ba := s.ba ++ [x] }

/-- A lane has delivered a valid copy in this tide. -/
def Port.heard (p : Port) (l : Lane) : Port :=
  match l with
  | .A => { p with rxNowA := true }
  | .B => { p with rxNowB := true }

/-- The entry a copy makes in a close list. -/
def RxCopy.entry (c : RxCopy) : CloseEnt :=
  { node := c.f.src.toNat, copy := c.copy, port := c.port, lane := c.lane, payload := c.f.payload }

/-- The A-die's port engine checks its copy, counts a failure, and sends its verdict; the first good INPUT of a node in
intake becomes the basis of its run-ahead (R51, R156, R217, R237). -/
def copyAtA (s : State) (k : Nat) (p : Fin 4) (l : Lane) (os : Octets) : State :=
  match judgeCopy s .A p l os with
  | .bad node =>
    gwSend (fire (s.modPort p.val fun x => { x with hdr := sat18 x.hdr }) (51 + 8 * p.val) 0 (BitVec.ofNat 32 node)) .A
      (.aVerdict k false)
  | .badSig f =>
    gwSend (fire (s.modPort p.val fun x => { x with siga := sat18 x.siga }) (50 + 8 * p.val) 0 (f.src.setWidth 32)) .A
      (.aVerdict k false)
  | .good f =>
    let c : RxCopy := { copy := k, port := p, lane := l, f := f }
    let s1 := s.modIntake fun i => { i with aCopies := i.aCopies ++ [c] }
    let s2 := if f.kind = 0 && f.tide = s.now then takeBasis s1 c.entry else s1
    gwSend s2 .A (.aVerdict k true)

/-- The B-die's tap checks its own copy. -/
def copyAtB (s : State) (k : Nat) (p : Fin 4) (l : Lane) (os : Octets) : State :=
  match judgeCopy s .B p l os with
  | .bad _ => s
  | .badSig _ => s.modPort p.val fun x => { x with sigbLive := sat18 x.sigbLive }
  | .good f => s.modIntake fun i => { i with bCopies := i.bCopies ++ [{ copy := k, port := p, lane := l, f := f }] }

/-- A die counts its own copy for the rate check, where it is a SERVICE or ENROL frame. -/
def rateCopy (s : State) (d : Die) (p : Fin 4) (l : Lane) (os : Octets) : State :=
  let n := (s.die d).net.getD Net.empty
  match lstParse n.vid n.etype 210 os with
  | some f => if f.kind = 2 || f.kind = 3 then rateAdd s { die := d, port := p, lane := l, node := f.src.toNat } else s
  | none => s

/-- Field lanes are received from the end of Manifest load on (R217). -/
def receives (s : State) : Bool := s.mode = .translate || s.mode = .enrol || s.mode = .live

/-- INPUT_COPY_RECEIVE: `fa` and `fb` are the frame as each die received it. A down lane carries no copies (R207). While
the port engine is in reset the B-die's tap still checks them (R399). -/
def execInputCopyReceive (p : Fin 4) (l : Lane) (fa fb : Octets) (s : State) : Host.Outcome State Fault Refusal :=
  if !receives s || !(s.port p.val).up l then .next s
  else
    let k := s.intake.nextCopy
    let s0 := s.modIntake fun i => { i with nextCopy := k + 1 }
    let atA := s0.runs .A && !s0.unitDown (.fpe p)
    let s1 := if atA then rateCopy (copyAtA s0 k p l fa) .A p l fa else s0
    let s2 := if s1.runs .B then rateCopy (copyAtB s1 k p l fb) .B p l fb else s1
    -- without an A-verdict no copy lands (R51)
    .next (if atA then s2 else s2.modIntake fun i => { i with bCopies := i.bCopies.filter fun c => c.copy ≠ k })

/-! ## Landing (R51 to R53, R226) -/

/-- A discarded copy differs from the used one: a copy divergence (R220). -/
def copyDiverges (s : State) (c : RxCopy) (used : CloseEnt) : State :=
  if c.f.payload = used.payload then s
  else
    let s1 := (s.modPort c.port.val fun x => { x with cdiv := sat18 x.cdiv }).modNode used.node fun x =>
      { x with cdiv := sat16 x.cdiv }
    fire s1 (52 + 8 * c.port.val) 0 (BitVec.ofNat 32 used.node)

/-- A duplicate: discarded, counted, compared (R53). -/
def copyDup (s : State) (c : RxCopy) (used : CloseEnt) : State :=
  copyDiverges (s.modPort c.port.val fun x => { x with dup := sat18 x.dup }) c used

/-- A late copy: discarded and counted (R51, R78). -/
def copyLate (s : State) (c : RxCopy) : State :=
  budgetCount (s.modPort c.port.val fun x => { x with late := sat18 x.late }) 7

/-- A copy outside the tide: discarded and counted (R52). -/
def copyOot (s : State) (c : RxCopy) : State := s.modPort c.port.val fun x => { x with oot := sat18 x.oot }

/-- An INPUT copy of this tide lands: the position of the landing is judged (R76, R78), and the copy enters the close list,
or is a duplicate or late. -/
def landNow (s : State) (c : RxCopy) : State :=
  let s1 := budgetPeak s 0 (tickPos s)
  let s2 := if Config.tickAt 600 < s1.tide.tick then fire s1 7 0 (c.f.src.setWidth 32) else s1
  match s2.intake.closeB.find? fun e => e.node = c.f.src.toNat with
  | some used => copyDup s2 c used
  | none =>
    if s2.intake.bClosed then copyLate s2 c
    else gwSend (s2.modIntake fun i => { i with closeB := i.closeB ++ [c.entry] }) .B (.landing c.entry)

/-- An INPUT copy lands (R51, R52). -/
def landInput (s : State) (c : RxCopy) : State :=
  let s := { s with twin := { s.twin with inputSeen := true } }
  if c.f.tide = s.now then landNow s c
  else if c.f.tide = s.now + 1 then
    (if s.tide.ph = 5 then s.modIntake fun i => { i with held := i.held ++ [c] } else copyOot s c)
  else if c.f.tide = s.now - 1 then
    -- a whole tide past the time R55 requires (R76)
    let s := fire s 7 0 (c.f.src.setWidth 32)
    match s.intake.prevB.find? fun e => e.node = c.f.src.toNat with
    | some used => copyDup s c used
    | none => copyLate s c
  else copyOot s c

/-- The acceptance of a sequence value for a key (R226): none where it is a duplicate or stale. -/
def dupTake (ws : List DupWin) (f : Lst) : Option (List DupWin) :=
  let unit := f.kind = 2 && f.unit
  let same (w : DupWin) : Bool := w.src = f.src && w.kind = f.kind && w.unit = unit
  let v := seqVal f
  match ws.find? same with
  | none => some (ws ++ [{ src := f.src, kind := f.kind, unit := unit, high := v, seen := 1 }])
  | some w => match winTake w.high w.seen v with
    | some x => some (ws.map fun y => if same y then { y with high := x.1, seen := x.2 } else y)
    | none => none

/-- A SERVICE or ENROL copy lands: accepted once (R226). SERVICE for the other unit is ignored (R224). -/
def landOther (s : State) (c : RxCopy) : State :=
  match dupTake s.intake.dups c.f with
  | none => s.modPort c.port.val fun x => { x with dup := sat18 x.dup }
  | some ws =>
    let s1 := s.modIntake fun i => { i with dups := ws }
    if c.f.kind = 3 then s1.modIntake fun i => { i with landedEnrol := i.landedEnrol ++ [c] }
    else if c.f.unit = s.unitBit then s1.modIntake fun i => { i with landedSvc := i.landedSvc ++ [c] }
    else s1

/-- Take the first frame of a queue that satisfies p. -/
def takeFrame (q : List GwFrame) (p : GwFrame → Bool) : Option (GwFrame × List GwFrame) :=
  match q.find? p with
  | some x => some (x, q.eraseP p)
  | none => none

/-- A frame is a verdict on a copy. -/
def GwFrame.isVerdictA : GwFrame → Bool
  | .aVerdict _ _ => true
  | _ => false

/-- The B-die holds a passing verdict on a copy and its own check has passed: the copy lands. -/
def copyLands (s : State) (k : Nat) : State :=
  match s.intake.bCopies.find? fun c => c.copy = k with
  | none => s
  | some c =>
    let s1 := (s.modIntake fun i => { i with bCopies := i.bCopies.filter fun x => x.copy ≠ k }).modPort c.port.val
      fun x => x.heard c.lane
    if c.f.kind = 0 then landInput s1 c
    else
      let a := (s1.intake.aCopies.find? fun x => x.copy = k).getD c
      landOther s1 { a with tap := some { since := s.now, octets := c.f.payload } }

/-- A_VERDICT_RECEIVED by the B-die: the oldest verdict on the Gangway. -/
def execAVerdictReceived (s : State) : Host.Outcome State Fault Refusal :=
  if !s.runs .B then .next s
  else match takeFrame s.ab GwFrame.isVerdictA with
    | some (.aVerdict k true, q) => .next (copyLands { s with ab := q } k)
    | some (.aVerdict k false, q) =>
      .next ({ s with ab := q }.modIntake fun i => { i with bCopies := i.bCopies.filter fun x => x.copy ≠ k })
    | _ => .next s

/-- A frame is a landing notice. -/
def GwFrame.isLanding : GwFrame → Bool
  | .landing _ => true
  | _ => false

/-- LANDING_NOTICE_RECEIVED by the A-die. -/
def execLandingNoticeReceived (s : State) : Host.Outcome State Fault Refusal :=
  if !s.runs .A then .next s
  else match takeFrame s.ba GwFrame.isLanding with
    | some (.landing e, q) => .next ({ s with ba := q }.modIntake fun i => { i with noticesA := i.noticesA ++ [e] })
    | _ => .next s

/-! ## Node reports (R218, R260, R264) -/

/-- The status word in an INPUT payload. -/
def CloseEnt.status (e : CloseEnt) : BitVec 16 := BitVec.ofNat 16 (field e.payload 0 2)

/-- TAKEN names unit u. -/
def takenIs (w : BitVec 16) (u : Bool) : Bool := w.getLsbD 15 == u

/-- SEEN of unit u: bit 14 for unit 0, bit 13 for unit 1. -/
def seenBit (w : BitVec 16) (u : Bool) : Bool := if u then w.getLsbD 13 else w.getLsbD 14

/-- The status words of the enrolled nodes on a close list. -/
def reports (s : State) (cl : List CloseEnt) : List (BitVec 16) :=
  (cl.filter fun e => s.enrolledNow e.node).map CloseEnt.status

/-- How many nodes are enrolled. -/
def enrolledCount (s : State) : Nat := countIf s.nodes fun x => x.enrolled

/-- A role change waits for the next tide boundary (R258). -/
def rolePlan (s : State) (r : Role) (cause : BitVec 8) : State :=
  if r = s.twin.role then s else { s with twin := { s.twin with roleNext := some (r, cause) } }

/-- The decision of a unit that lost the heartbeat while unsettled, at an intake close (R260). -/
def unsettledStep (s : State) : State :=
  match s.twin.unsettled with
  | none => s
  | some k =>
    let own := s.unitBit
    let half := enrolledCount s / 2
    let rs := reports s s.intake.closeB
    let x := countIf rs fun w => takenIs w (!own) && seenBit w (!own) && !seenBit w own
    let y := countIf rs fun w => takenIs w own && seenBit w own && !seenBit w (!own)
    let stop (r : Role) : State := rolePlan { s with twin := { s.twin with unsettled := none } } r 4
    if half < x then stop .isoSending
    else if half < y then stop .leader
    else if k + 1 < 16 then { s with twin := { s.twin with unsettled := some (k + 1) } }
    else stop (if own then .isoSending else .leader)

/-! ## Intake close -/

/-- Accepted class-N writes join the inputs of the tide (R37). -/
def nwMerge (s : State) : State :=
  { s with eva := { s.eva with
    nwThis := [],
    nwVal := s.eva.nwThis.foldl (fun l x => (l.filter fun y => y.1 ≠ x.1) ++ [x]) s.eva.nwVal } }

/-- INTAKE_CLOSE: the intake set is closed, LIO samples and applies, Channel B evaluates. -/
def execIntakeClose (pins : PinSample) (s : State) : Host.Outcome State Fault Refusal :=
  if !s.tide.running || s.tide.ph ≠ 0 then .next s
  else
    let s1 := enterPhase s 1 700
    let s2 := if s1.runs .B then gwSend (s1.modIntake fun i => { i with bClosed := true }) .B (.closeMarker s1.now) else s1
    let s3 := nwMerge (lioIntake s2 pins)
    let s4 := if s3.man.stage ≠ 6 then { s3 with eva := { s3.eva with swap := false } } else s3
    .next (capPulse (evalB (unsettledStep s4)) 2)

/-- A frame is a close marker. -/
def GwFrame.isClose : GwFrame → Bool
  | .closeMarker _ => true
  | _ => false

/-- The frames that arrive with a close marker: the notices before it; every other frame stays. -/
def splitClose : List GwFrame → Option (List CloseEnt × List GwFrame)
  | [] => none
  | .closeMarker _ :: q => some ([], q)
  | .landing e :: q => (splitClose q).map fun x => (e :: x.1, x.2)
  | f :: q => (splitClose q).map fun x => (x.1, f :: x.2)

/-- The close list of some notices: each node at its first landed copy (R51). -/
def closeListOf (es : List CloseEnt) : List CloseEnt :=
  es.foldl (fun l e => if l.any fun x => x.node = e.node then l else l ++ [e]) []

/-- A node of the close list: status word, tide, TD report (R219); a copy without a passing A-verdict is GWY 17 (R158). -/
def closeNode (s : State) (e : CloseEnt) : State :=
  let w := e.status
  let s0 := if s.intake.aCopies.any fun c => c.copy = e.copy then s else fire1 s 17
  let s1 := s0.modNode e.node fun x => { x with status := w, lastTide := s.now }
  if w.getLsbD 12 then
    let s2 := (s1.modNode e.node fun x => { x with tdiv := sat16 x.tdiv }).modPort e.port.val fun x =>
      { x with tdiv := sat18 x.tdiv }
    fire s2 (53 + 8 * e.port.val) 0 (BitVec.ofNat 32 e.node)
  else s1

/-- An enrolled node without a copy is absent (R183, R239). -/
def absentNode (s : State) (n : Nat) : State :=
  fire (s.modNode n fun x => { x with absent := if x.absent.toNat = 2 ^ 24 - 1 then x.absent else x.absent + 1 }) 33 0
    (BitVec.ofNat 32 n)

/-- Add to a counter of TWIN_HEALTH (R264), saturating. -/
def healthAdd (t : TwinSt) (k n : Nat) : TwinSt :=
  { t with health := listMod t.health k fun c => BitVec.ofNat 40 (min (c.toNat + n) (2 ^ 40 - 1)) }

/-- What the twin takes from a close list: TWIN_NODES, TWIN_HEALTH, and the reports that end an isolation (R258, R264). -/
def closeTwin (s : State) : State :=
  let ws := s.intake.closeA.map CloseEnt.status
  let rs := reports s s.intake.closeA
  let half := enrolledCount s / 2
  let own := s.unitBit
  let c16 (p : BitVec 16 → Bool) : BitVec 16 := BitVec.ofNat 16 (countIf ws p)
  let off := half < countIf rs (fun w => !seenBit w (!own))
  let on := half < countIf rs (fun w => seenBit w (!own))
  let t0 := healthAdd s.twin 4 (countIf rs fun w => w.getLsbD 12)
  let t1 := if half < countIf rs (fun w => seenBit w own) then healthAdd t0 3 1 else t0
  let s1 : State := { s with twin := { t1 with
    nodes4 := [c16 fun w => !w.getLsbD 15, c16 fun w => w.getLsbD 15, c16 fun w => w.getLsbD 14, c16 fun w => w.getLsbD 13],
    seenOff := if off then t1.seenOff + 1 else 0, seenOn := if on then t1.seenOn + 1 else 0 } }
  match s1.twin.role with
  | .isoSending =>
    if 2 ≤ s1.twin.seenOff then rolePlan s1 .leader 5
    else if 16 ≤ s1.twin.seenOn then rolePlan s1 .isoSilent 5 else s1
  | .isoSilent => if 2 ≤ s1.twin.seenOff then rolePlan s1 .leader 5 else s1
  | _ => s1

/-- CLOSE_LIST_RECEIVED by the A-die: Channel A reconciles and evaluates (R158). -/
def execCloseListReceived (s : State) : Host.Outcome State Fault Refusal :=
  if !s.runs .A || !s.tide.running then .next s
  else match splitClose s.ba with
    | none => .next s
    | some (es, q) =>
      let notices := s.intake.noticesA ++ es
      let cl := closeListOf notices
      let s1 : State := { s with
        ba := q, tide := { s.tide with closed := true },
        intake := { s.intake with noticesA := notices, closeA := cl } }
      let s2 := cl.foldl closeNode s1
      let gone := (List.range s2.nodes.length).filter fun n => s2.enrolledNow n && !(cl.any fun e => e.node = n)
      .next (evalA (closeTwin (gone.foldl absentNode s2)))

/-- CHANNEL_A_EVAL_COMPLETE: A_DONE (R158, R159). -/
def execChannelAEvalComplete (s : State) : Host.Outcome State Fault Refusal :=
  if s.runs .A && s.a.armed && s.tide.closed then
    .next (budgetPeak { s with tide := { s.tide with aDone := true } } 1 (tickPos s))
  else .next s

/-- CHANNEL_B_EVAL_COMPLETE: B_DONE arrives (R163). -/
def execChannelBEvalComplete (s : State) : Host.Outcome State Fault Refusal :=
  if s.runs .A && s.runs .B && s.b.armed && s.intake.bClosed then
    .next (budgetPeak { s with tide := { s.tide with bDone := true } } 2 (tickPos s))
  else .next s

end Sys2Proof.Machine
end

