-- ==== Sys2Proof/Machine/Operands.lean ====
section
/-!
DEFINITION. The address map of the A-die (R31): reads and writes of every register by either ring, with the access codes of
R12, protection (R33, R38), blocks in reset (R398) and bus errors; the class-N write port (R37, R180, R181) and the posts of
SVC (R296, R297), which registers start.
-/

namespace Sys2Proof.Machine

/-! ## Windows -/

/-- The address of the first window. -/
def windowBase : Nat := 0o77000000

/-- The block of a window, by the window's place in R31. -/
def windowBlock (w : Nat) : Nat := if w ≤ 2 then w else if w = 17 then 3 else w + 1

/-- The unit whose reset takes a window out (R328, R398). -/
def windowUnit (w : Nat) : Option RstUnit :=
  match w with
  | 3 => some (.fpe 0)
  | 4 => some (.fpe 1)
  | 5 => some (.fpe 2)
  | 6 => some (.fpe 3)
  | 8 => some .mgp
  | 16 => some .svc
  | _ => none

/-- The block of a window is in reset. -/
def windowDown (s : State) (w : Nat) : Bool := (windowUnit w).any s.unitDown

/-! ## The class-N write port (R37, R180, R181) -/

/-- A write of NW_VAL: refused with source 23, or taken for this tide or, from intake close on, the next. -/
def classNWrite (s : State) (v : Word) : State :=
  let p := s.eva.nwIdx.toNat
  let n := s.netA
  if !n.declared p then fire { s with eva := { s.eva with nwRes := 3 } } 23 0 (s.eva.nwIdx.setWidth 32)
  else if !n.partSourced p then fire { s with eva := { s.eva with nwRes := 2 } } 23 0 (s.eva.nwIdx.setWidth 32)
  else
    let late := s.tide.ph ≠ 0
    let put (l : List (Nat × BitVec 12)) : List (Nat × BitVec 12) := (l.filter fun x => x.1 ≠ p) ++ [(p, v.setWidth 12)]
    { s with eva := { s.eva with
        nwRes := 1, nwNext := late, nwThis := if late then s.eva.nwThis else put s.eva.nwThis,
        nwLater := if late then put s.eva.nwLater else s.eva.nwLater } }

/-! ## Posts (R296, R297) -/

/-- The message that TXOFF and TXLEN name; none where the post is ignored or a word of it is uncorrectable (R20). -/
def postedMessage (s : State) : Option Octets :=
  let n := s.svc.txlen.toNat
  if s.svc.busy || n < 24 || 1440 < n || 131072 < s.svc.txoff.toNat + (n + 1) / 2 then none
  else memOctets s (0o17000000 + s.svc.txoff.toNat) n

/-- What FENCE.DICT follows of a posted REQUEST (R360). -/
def followPost (s : State) (path : Bool) (m : Octets) : State :=
  if field m 0 1 = 0x12 && 36 ≤ m.length then
    s.modSvc fun v => { v with posted := v.posted ++ [{
      path := path, ses := BitVec.ofNat 3 (field m 1 1 / 16), rid := BitVec.ofNat 4 (field m 9 1),
      rn := BitVec.ofNat 16 (field m 10 2), since := s.now, ift := none, gaveUp := false }] }
  else s

/-- SVC.POST with PATH 0 (this unit's dictionary) or 1 (the peer's, over the Hawser). -/
def post (s : State) (ring : Ring) (peer : Bool) : State :=
  if s.unitDown .svc then s
  else match postedMessage s with
    | none => s.modSvc fun v => { v with txerr := true }
    | some m =>
      let s1 := match ring with
        | .part => followPost s peer m
        | .exec => s
      if peer then s1.modSvc fun v => { v with outQ := v.outQ ++ [{ dest := .peer (!s.unitBit), octets := m, note := none }] } else receive s1 .own m none

/-! ## Reads -/

/-- A 36-bit value's words, and bits of the local I/O. -/
def lowBits (x : BitVec 32) : Word := BitVec.ofNat 18 (x.toNat % 2 ^ 18)
def highBits (x : BitVec 32) : Word := BitVec.ofNat 18 (x.toNat / 2 ^ 18)

/-- An event register (R316). -/
def evRegRead (s : State) (b off : Nat) : State × Word :=
  let e := s.shown b
  match off with
  | 0o6000 => (s, statWord s b e)
  | 0o6001 => (s, e.mask.setWidth 18)
  | 0o6002 => (s, e.sevL)
  | 0o6003 => (s, e.sevH)
  | 0o6004 => firstRead s b
  | 0o6005 => (s, lowW e.snapTide)
  | 0o6006 => (s, highW e.snapTide)
  | 0o6007 => (s, e.snapTick.setWidth 18)
  | _ => (s, 0)

/-- TIDE (R75). -/
def tideRegRead (s : State) (off : Nat) : State × Word :=
  let t := s.tide
  match off with
  | 0 => (s, t.per.setWidth 18)
  | 1 => numRead s false
  | 2 => (s, t.snapNum)
  | 3 => numRead s true
  | 4 => (s, t.snapCnum)
  | 5 => (s, BitVec.ofNat 18 (t.ph.toNat * 32768 + t.tick.toNat))
  | 6 => (s, BitVec.ofNat 18 (b2n t.cfence * 8 + b2n t.closed * 4 + b2n t.bDone * 2 + b2n t.aDone))
  | 7 => (s, if s.twin.role = .follower then t.twoff else 0)
  | _ => (s, 0)

/-- EVA (R180). -/
def evaRegRead (s : State) (off : Nat) : Word :=
  let e := s.eva
  match off with
  | 0 => BitVec.ofNat 18 (b2n e.raen)
  | 1 => BitVec.ofNat 18 (b2n e.swap * 8 + b2n e.cones * 4 + b2n e.ra * 2 + b2n e.bank)
  | 2 => e.cancel
  | 3 => e.recomp
  | 4 => BitVec.ofNat 18 (sweepFirst s.now)
  | 0o7000 => e.nwIdx
  | 0o7002 => BitVec.ofNat 18 (b2n e.nwNext * 4 + e.nwRes.toNat)
  | _ => 0

/-- FPE_n (R237). -/
def fpeRegRead (s : State) (n off : Nat) : Word :=
  let p := s.port n
  match off with
  | 0 => lstat s n
  | 1 => BitVec.ofNat 18 (nenr s n)
  | 2 => p.late
  | 3 => p.oot
  | 4 => p.siga
  | 5 => p.sigb
  | 6 => p.hdr
  | 7 => p.dup
  | 8 => p.cdiv
  | 9 => p.tdiv
  | 10 => p.txc
  | _ => 0

/-- HWS (R265). -/
def hwsRegRead (s : State) (off : Nat) : Word :=
  let t := s.twin
  let peer (i : Nat) : Nat := if t.peer = [] then 0 else field t.peer i 1
  match off with
  | 0 => BitVec.ofNat 18 (peer 0 % 8 * 512 + peer 2 / 128 * 256 + b2n (t.hbA || t.hbB) * 128 + b2n s.unitBit * 8
      + t.role.code)
  | 1 => BitVec.ofNat 18 (b2n t.presB * 8192 + b2n t.presA * 4096 + b2n (s.netA.hopt .B) * 2048 + b2n (s.netA.hopt .A) * 1024
      + b2n t.upB * 512 + b2n t.upA * 256 + b2n t.hbB * 2 + b2n t.hbA)
  | 2 => BitVec.ofNat 18 (b2n t.adopt * 131072 + b2n t.f0 * 65536 + t.nfr.toNat * 2048)
  | 3 => BitVec.ofNat 18 (if s.loaded && s.netA.twin then s.netA.mirrorSize else 0)
  | 4 => t.hbMissA
  | 5 => t.hbMissB
  | 6 => t.mirMiss
  | 7 => t.wheld
  | 8 => t.gdiff
  | _ => 0

/-- LIO (R203). -/
def lioRegRead (s : State) (off : Nat) : Word :=
  let l := s.lio
  match off with
  | 0o00 => lowBits l.inA
  | 0o01 => highBits l.inA
  | 0o02 => lowBits l.inB
  | 0o03 => highBits l.inB
  | 0o04 => lowBits l.flt
  | 0o05 => highBits l.flt
  | 0o06 => l.cmdA.setWidth 18
  | 0o07 => l.cmdB.setWidth 18
  | 0o10 => l.rbA.setWidth 18
  | 0o11 => l.regOvl.setWidth 18
  | 0o12 => l.regFlt.setWidth 18
  | 0o13 => l.vsupA
  | 0o14 => l.vsupB
  | 0o15 => BitVec.ofNat 18 (b2n l.tAct * 2048 + l.tKind.toNat * 512 + b2n l.tSw * 256 + l.tRes.toNat * 64 + l.tQn.toNat)
  | _ => 0

/-- TPG (R204). Which of the feeds that have been at their limit still are is the outside world's: a free value (log 27). -/
def tpgRegRead (s : State) (off : Nat) : State × Word :=
  match off with
  | 0 =>
    let s1 : State := { s.modLio fun l => { l with tpgOvl := l.tpgOvl &&& Config.atLimit s.draws } with draws := s.draws + 1 }
    (s1, BitVec.ofNat 18 (s1.lio.tpgOvl.toNat * 256 + s1.lio.tpgAct.toNat))
  | 1 => (s, s.lio.isens)
  | _ => (s, 0)

/-- TIM (R340). -/
def timWinRead (s : State) (ring : Ring) (off : Nat) : State × Word :=
  if off < 0o400 then timRegRead s (off / 16) (off % 16) ring
  else if off = 0o402 then (s, timRun s)
  else (s, 0)

/-- CHK (R351). -/
def chkWinRead (s : State) (off : Nat) : State × Word :=
  if off < 0o200 then chkRegRead s (off / 32) (off % 32) else (s, 0)

/-- REC (R418). -/
def recRegRead (s : State) (off : Nat) : State × Word :=
  let r := s.rcd
  match off with
  | 0 => (s, recStat r)
  | 1 => ({ s with rcd := { r with latchNew := highW (r.newest.getD 0) } }, lowW (r.newest.getD 0))
  | 2 => (s, r.latchNew)
  | 3 => ({ s with rcd := { r with latchOld := highW r.oldest } }, lowW r.oldest)
  | 4 => (s, r.latchOld)
  | 5 => (s, r.drop)
  | 6 => (s, BitVec.ofNat 18 r.emax)
  | 7 => (s, BitVec.ofNat 18 r.usable)
  | _ => (s, 0)

/-- SVC (R296). -/
def svcRegRead (s : State) (off : Nat) : Word :=
  let v := s.svc
  match off with
  | 0 => v.txoff.setWidth 18
  | 1 => v.txlen.setWidth 18
  | 3 => BitVec.ofNat 18 (b2n v.busy * 131072 + b2n (decide (v.rxhead ≠ v.rxtail)) * 65536 + b2n v.rxovr * 32768
      + b2n v.txerr * 16384)
  | 4 => v.rxbase.setWidth 18
  | 5 => v.rxsize.setWidth 18
  | 6 => v.rxhead.setWidth 18
  | 7 => v.rxtail.setWidth 18
  | _ => 0

/-- The EVB mirror: FUS.STAT and FUS.REG_r of the B-die as last mirrored (R379). -/
def evbRegRead (s : State) (off : Nat) : Word :=
  if off = 0o4000 then s.evbRegs.headD 0
  else if 0o4040 ≤ off && off < 0o4100 then s.evbRegs.getD (off - 0o4037) 0
  else 0

/-- A read in a peripheral window. -/
def windowRead (s : State) (ring : Ring) (w off : Nat) : State × Word :=
  if 0o6000 ≤ off && off ≤ 0o6010 then evRegRead s (windowBlock w) off
  else if windowDown s w then (s, 0)
  else match w with
    | 0 => tideRegRead s off
    | 2 => (s, evaRegRead s off)
    | 3 => (s, fpeRegRead s 0 off)
    | 4 => (s, fpeRegRead s 1 off)
    | 5 => (s, fpeRegRead s 2 off)
    | 6 => (s, fpeRegRead s 3 off)
    | 7 => (s, hwsRegRead s off)
    | 9 => (s, lioRegRead s off)
    | 10 => tpgRegRead s off
    | 11 => timWinRead s ring off
    | 12 => chkWinRead s off
    | 13 => (s, fusRegRead s off)
    | 14 => pwsRegRead s off
    | 15 => recRegRead s off
    | 16 => (s, svcRegRead s off)
    | 17 => (s, evbRegRead s off)
    | _ => (s, 0)

/-- The CORE window (R38). -/
def coreRegRead (s : State) (off : Nat) : Word :=
  let c := s.core
  if off = 0 then BitVec.ofNat 18 (c.fkind.toNat * 4 + b2n c.flt * 2 + b2n c.pend)
  else if off = 1 then c.pfa.setWidth 18
  else if off = 2 then (c.pfa >>> 18).setWidth 18
  else if 0o100 ≤ off && off < 0o140 then
    let k := (off - 0o100) / 4
    match off % 4 with
    | 0 => c.pbase.getD k 0
    | 1 => c.plim.getD k 0
    | 2 => (c.prgt.getD k 0).setWidth 18
    | _ => 0
  else 0

/-- A read on the bus: the word, or none for a bus error (R31). -/
def busGet (s : State) (ring : Ring) (a : Nat) : State × Option Word :=
  if within windowBase 0o77217777 a then
    let x := windowRead s ring ((a - windowBase) / 4096) (a % 4096)
    (x.1, some x.2)
  else if within 0o77400000 0o77407777 a then (s, some (coreRegRead s (a % 4096)))
  else memRead s a

/-! ## Writes -/

/-- A store to a block's CLEAR register (R333): what the detectors find is a free value here (log 43). -/
def clearWrite (s : State) (b : Nat) (v : Word) : State :=
  let s1 : State := { s with draws := s.draws + 1 }
  if clearRefused s b (v.setWidth 16) (Config.detected s.draws) then s1 else clearDo s1 b (v.setWidth 16)

/-- A store to an event register. -/
def evRegWrite (s : State) (b off : Nat) (v : Word) : State :=
  if b = 3 then s
  else match off with
    | 0o6010 => clearWrite s b v
    | 0o6001 => s.modEv b fun e => { e with mask := v.setWidth 16 }
    | 0o6002 => if sevWritable b && sevWordAllowed b false v then s.modEv b fun e => { e with nextL := some v } else s
    | 0o6003 =>
      let w := sevHigh v
      if sevWritable b && sevWordAllowed b true w then s.modEv b fun e => { e with nextH := some w } else s
    | _ => s

/-- TIDE.PERIOD: 1, 2 or 4, from the next tide on (R45, R75). -/
def periodWrite (s : State) (v : Word) : State :=
  let p : BitVec 3 := v.setWidth 3
  if p = 1 || p = 2 || p = 4 then { s with tide := { s.tide with perNext := some (p, tideAdd s.now 1) } } else s

/-- EVA.CTRL. -/
def evaCtrlWrite (s : State) (v : Word) : State := { s with eva := { s.eva with raen := v.getLsbD 0 } }

/-- EVA. -/
def evaRegWrite (s : State) (off : Nat) (v : Word) : State :=
  match off with
  | 0 => evaCtrlWrite s v
  | 0o7000 => { s with eva := { s.eva with nwIdx := v } }
  | 0o7001 => classNWrite s v
  | _ => s

/-- FPE_n: the counters the executive sets. -/
def fpeRegWrite (s : State) (n off : Nat) (v : Word) : State :=
  match off with
  | 2 => s.modPort n fun p => { p with late := v }
  | 3 => s.modPort n fun p => { p with oot := v }
  | 4 => s.modPort n fun p => { p with siga := v }
  | 6 => s.modPort n fun p => { p with hdr := v }
  | 7 => s.modPort n fun p => { p with dup := v }
  | 8 => s.modPort n fun p => { p with cdiv := v }
  | 9 => s.modPort n fun p => { p with tdiv := v }
  | _ => s

/-- HWS. -/
def hwsRegWrite (s : State) (off : Nat) (v : Word) : State :=
  match off with
  | 4 => s.modTwin fun t => { t with hbMissA := v }
  | 5 => s.modTwin fun t => { t with hbMissB := v }
  | 6 => s.modTwin fun t => { t with mirMiss := v }
  | _ => s

/-- TIM. -/
def timWinWrite (s : State) (off : Nat) (v : Word) : State :=
  if off < 0o400 then settleTimers (timRegWrite s (off / 16) (off % 16) v)
  else if off = 0o400 then goWrite s v
  else if off = 0o401 then haltWrite s v
  else s

/-- CHK. -/
def chkWinWrite (s : State) (ring : Ring) (off : Nat) (v : Word) : State :=
  if off < 0o200 then chkRegWrite s ring (off / 32) (off % 32) v else s

/-- SVC. -/
def svcRegWrite (s : State) (ring : Ring) (off : Nat) (v : Word) : State :=
  match off with
  | 0 => s.modSvc fun x => { x with txoff := v.setWidth 17 }
  | 1 => s.modSvc fun x => { x with txlen := v.setWidth 11 }
  | 2 => if v.toNat % 4 = 0 then post s ring false else if v.toNat % 4 = 1 then post s ring true else s
  | 3 => s.modSvc fun x => { x with rxovr := x.rxovr && !v.getLsbD 15, txerr := x.txerr && !v.getLsbD 14 }
  | 4 => s.modSvc fun x => { x with rxbase := v.setWidth 17 }
  | 5 => s.modSvc fun x => { x with rxsize := v.setWidth 17 }
  | 7 => s.modSvc fun x => { x with rxtail := v.setWidth 17 }
  | _ => s

/-- A write in a peripheral window; a block in reset ignores it (R398). -/
def windowWrite (s : State) (ring : Ring) (w off : Nat) (v : Word) : State :=
  if windowDown s w then s
  else if 0o6000 ≤ off && off ≤ 0o6010 then evRegWrite s (windowBlock w) off v
  else match w with
    | 0 => if off = 0 then periodWrite s v else s
    | 2 => evaRegWrite s off v
    | 3 => fpeRegWrite s 0 off v
    | 4 => fpeRegWrite s 1 off v
    | 5 => fpeRegWrite s 2 off v
    | 6 => fpeRegWrite s 3 off v
    | 7 => hwsRegWrite s off v
    | 11 => timWinWrite s off v
    | 12 => chkWinWrite s ring off v
    | 13 => fusRegWrite s off v
    | 14 => pwsRegWrite s off v
    | 16 => svcRegWrite s ring off v
    | _ => s

/-- The CORE window: a written protection register awaits FENCE.MEM (R35, R38). -/
def coreRegWrite (s : State) (off : Nat) (v : Word) : State :=
  let c := s.core
  if off = 0 then { s with core := { c with flt := c.flt && !v.getLsbD 1 } }
  else if 0o100 ≤ off && off < 0o140 then
    let k := (off - 0o100) / 4
    match off % 4 with
    | 0 => { s with core := { c with pend := true, pbase := listMod c.pbase k fun _ => v } }
    | 1 => { s with core := { c with pend := true, plim := listMod c.plim k fun _ => v } }
    | 2 => { s with core := { c with pend := true, prgt := listMod c.prgt k fun _ => v.setWidth 4 } }
    | _ => s
  else s

/-- The bus reports an error and changes nothing else (R31). -/
def busFault (s : State) : State := { s with core := { s.core with busErr := true } }

/-- The bus completes an access without error. -/
def busDone (s : State) : State := { s with core := { s.core with busErr := false } }

/-- A write on the bus (R31). -/
def busPut (s : State) (ring : Ring) (a : Nat) (v : Word) : State :=
  if within windowBase 0o77217777 a then busDone (windowWrite s ring ((a - windowBase) / 4096) (a % 4096) v)
  else if within 0o77400000 0o77407777 a then busDone (coreRegWrite s (a % 4096) v)
  else if isRam a then busDone (memSet s a v)
  else busFault s

/-! ## Refused accesses (R33, R36, R38, R39) -/

/-- FKIND of a refused access: 3 where no region contains the address. -/
def faultKind (s : State) (k : Access) (a : Nat) : Nat := if (regionOf s a).isNone then 3 else rightBit k

/-- A refused partition access traps: FLT and its registers, the partition suspended, a record. A fence that waits is
abandoned (R361). -/
def accessFault (s : State) (k : Access) (a : BitVec 24) : State :=
  let f := faultKind s k a.toNat
  let s1 : State := { s with core := { s.core with
    flt := true, fkind := BitVec.ofNat 3 f, pfa := a, part := 1, faultTide := s.now, partFkind := BitVec.ofNat 3 f,
    partAddr := a, fenceReg := none } }
  recSystem s1 6 (BitVec.ofNat 8 f :: be 3 a.toNat)

/-- The partition runs: the A-die runs, and the partition is not suspended (R307). -/
def partRuns (s : State) : Bool := s.runs .A && s.core.part = 0

/-- A ring may act: the A-die runs, and the partition is neither suspended nor held by a fence that waits (R360). -/
def ringRuns (s : State) (r : Ring) : Bool :=
  match r with
  | .exec => s.runs .A
  | .part => partRuns s && s.core.fenceReg.isNone

/-- An access by a ring at an address: by the partition only as its protection regions allow. -/
def ringAccess (s : State) (r : Ring) (k : Access) (a : BitVec 24) (f : State → State) : State :=
  if !ringRuns s r then s
  else if ringMay s r k a.toNat then f s
  else accessFault s k a

/-- A write by a ring at an address. -/
def ringWrite (s : State) (r : Ring) (a : BitVec 24) (f : State → State) : State := ringAccess s r .write a f

/-- The kind of a bus access. -/
def busKind : BusOp → Access
  | .read => .read
  | .write _ => .write
  | .fetch => .fetch

/-- A read on the bus ends: with its word, or with a bus error (R31). -/
def busAnswer (x : State × Option Word) : State :=
  match x.2 with
  | some w => x.1.busReturns w
  | none => busFault x.1

/-- An access on the bus; a fetch is possible from instruction SRAM alone (R32). -/
def busAccess (s : State) (ring : Ring) (a : Nat) (op : BusOp) : State :=
  match op with
  | .read => busAnswer (busGet s ring a)
  | .write v => busPut s ring a v
  | .fetch => if within 0o40000000 0o40777777 a then busAnswer (busGet s ring a) else busFault s

/-- REGISTER_WRITE: any register or memory word, by its access code (R12). The table has no row for a plain read or a fetch,
and this row carries them too (log 79). -/
def execRegisterWrite (ring : Ring) (addr : BitVec 24) (op : BusOp) (s : State) : Host.Outcome State Fault Refusal :=
  .next (ringAccess s ring (busKind op) addr fun s => busAccess s ring addr.toNat op)

/-- CLASS_N_WRITE: a write of EVA.NW_VAL. -/
def execClassNWrite (ring : Ring) (v : Word) (s : State) : Host.Outcome State Fault Refusal :=
  .next (ringWrite s ring 0o77027001 fun s => classNWrite s v)

/-- TIMER_CNT_LOW_READ: a read of CNT, or of CAP, by a ring that its regions allow (R33, R346). -/
def execTimerCntLowRead (n : Fin 16) (cap : Bool) (ring : Ring) (s : State) : Host.Outcome State Fault Refusal :=
  .next (ringAccess s ring .read (BitVec.ofNat 24 (0o77130002 + 16 * n.val + (if cap then 3 else 0))) fun s =>
    (latchHigh s n.val cap ring).busReturns (timCount s.tim n.val cap ring))

/-- RUN_AHEAD_ENABLE_WRITE: EVA.CTRL (R160). -/
def execRunAheadEnableWrite (v : Word) (s : State) : Host.Outcome State Fault Refusal :=
  .next (if s.runs .A then evaCtrlWrite s v else s)

/-- TIDE_PERIOD_REGISTER_WRITE. -/
def execTidePeriodRegisterWrite (v : Word) (s : State) : Host.Outcome State Fault Refusal :=
  .next (if s.runs .A then periodWrite s v else s)

/-- PARTITION_ACCESS_FAULT: an access that the regions refuse. -/
def execPartitionAccessFault (k : Access) (addr : BitVec 24) (s : State) : Host.Outcome State Fault Refusal :=
  if !ringRuns s .part || allowed s k addr.toNat then .next s else .next (accessFault s k addr)

end Sys2Proof.Machine
end

