-- ==== Sys2Proof/Machine/Partition.lean ====
section
/-!
DEFINITION. The partition's fences (R35, R358 to R361), its posts and received messages (R296, R297), and the settings
store (R272, R315).
-/

namespace Sys2Proof.Machine

/-! ## Posts and the receive ring -/

/-- A post of the partition is its store to SVC.POST, as its protection regions allow (R33, R296). -/
def partPost (s : State) (peer : Bool) : State := ringWrite s .part 0o77200002 fun s => post s .part peer

/-- SVC_POST_LOCAL. -/
def execSvcPostLocal (s : State) : Host.Outcome State Fault Refusal := .next (partPost s false)

/-- SVC_POST_PEER. -/
def execSvcPostPeer (s : State) : Host.Outcome State Fault Refusal := .next (partPost s true)

/-- The words of a message in the receive ring: its octet count, then its octets two to a word (R297). -/
def ringWords (m : Octets) : List Word :=
  BitVec.ofNat 18 m.length ::
    (List.range ((m.length + 1) / 2)).map fun i => BitVec.ofNat 18 (field m (2 * i) 1 * 256 + field m (2 * i + 1) 1)

/-- The address of a ring position, within the port and dictionary buffers. -/
def ringAddr (v : SvcSt) (pos : Nat) : Nat := 0o17000000 + (v.rxbase.toNat + pos % v.rxsize.toNat) % 131072

/-- Words held in the ring. -/
def ringUsed (v : SvcSt) : Nat := (v.rxhead.toNat + v.rxsize.toNat - v.rxtail.toNat % v.rxsize.toNat) % v.rxsize.toNat

/-- A posted request is given up (R360). -/
def Posted.lost (p : Posted) (now : Tide) : Bool :=
  p.gaveUp || (p.ift.isNone && reached now (tideAdd p.since 8192))

/-- A RESPONSE settles the posted request it answers on its path, unless that is given up already (R360): from its IFT when
that is later than its TX, otherwise at once. -/
def settlePost (s : State) (peer : Bool) (m : Octets) (dropped : Bool) : State :=
  if field m 0 1 ≠ 0x13 || m.length < 47 then s
  else
    let ses := BitVec.ofNat 3 (field m 1 1 / 16)
    let rid := BitVec.ofNat 4 (field m 9 1)
    let rn := BitVec.ofNat 16 (field m 10 2)
    let tx : Tide := BitVec.ofNat 36 (field m 19 5)
    let ift : Tide := BitVec.ofNat 36 (field m 24 5)
    s.modSvc fun v => { v with posted := v.posted.map fun p =>
      if p.path = peer && p.ses = ses && p.rid = rid && p.rn = rn && p.ift.isNone && !p.lost s.now then
        (if dropped then { p with gaveUp := true } else { p with ift := some (if later ift tx then ift else s.now) })
      else p }

/-- A message of this unit's service or the other's reaches the receive ring: written into it, or dropped with RXOVR where
the ring is full (R297). -/
def ringReceive (s : State) (peer : Bool) (msg : Octets) : State :=
  let v := s.svc
  let ws := ringWords msg
  if !s.runs .A || s.unitDown .svc || v.rxsize = 0 then s
  else if v.rxsize.toNat ≤ ringUsed v + ws.length then
    settlePost (s.modSvc fun v => { v with rxovr := true }) peer msg true
  else
    let s1 := (ws.zip (List.range ws.length)).foldl (fun s x => memSet s (ringAddr v (v.rxhead.toNat + x.2)) x.1) s
    let s2 := s1.modSvc fun v => { v with rxhead := BitVec.ofNat 17 ((v.rxhead.toNat + ws.length) % v.rxsize.toNat) }
    settlePost s2 peer msg false

/-- SVC_MESSAGE_RECEIVED: the oldest message of a path, from the peer or of this unit's own service, that waits for the
partition. R297 gives no order between the paths (log 91). -/
def execSvcMessageReceived (peer : Bool) (s : State) : Host.Outcome State Fault Refusal :=
  match s.svc.ringIn.find? fun x => x.1 = peer with
  | none => .next s
  | some x => .next (ringReceive (s.modSvc fun v => { v with ringIn := v.ringIn.eraseP fun y => y.1 = peer }) x.1 x.2)

/-! ## Fences -/

/-- FENCE_MEM: executed by the executive it brings the written protection set-up into force (R35, R358). -/
def execFenceMem (ring : Ring) (s : State) : Host.Outcome State Fault Refusal :=
  if !s.runs .A then .next s
  else match ring with
    | .exec => .next { s with core := { s.core with
        fbase := s.core.pbase, flim := s.core.plim, frgt := s.core.prgt, pend := false } }
    | .part => .next s

/-- FENCE_PORT: stores are visible at once in this model, so it only completes (R359). -/
def execFencePort (s : State) : Host.Outcome State Fault Refusal := .next s

/-- FENCE_DICT: it starts to wait for what the partition has posted (R360). -/
def execFenceDict (reg : BitVec 8) (s : State) : Host.Outcome State Fault Refusal :=
  if ringRuns s .part then .next { s with core := { s.core with fenceReg := some reg } } else .next s

/-- A posted request is settled (R360). -/
def Posted.settled (p : Posted) (now : Tide) : Bool := p.lost now || p.ift.any fun t => reached now t

/-- FENCE_DICT_SETTLED: 0 in the register it names, or 1 when a request was given up; a partition that is suspended has no
fence that waits (R361). -/
def execFenceDictSettled (s : State) : Host.Outcome State Fault Refusal :=
  match s.core.fenceReg with
  | none => .next s
  | some r =>
    if !partRuns s || !(s.svc.posted.all fun p => p.settled s.now) then .next s
    else
      let v : Word := if s.svc.posted.any fun p => p.lost s.now then 1 else 0
      .next { s with
        core := { s.core with fenceReg := none, gpr := cellSet 0 s.core.gpr r.toNat v },
        svc := { s.svc with posted := [] } }

/-- PARTITION_INTERRUPT: a fence that waits is abandoned (R361). -/
def execPartitionInterrupt (s : State) : Host.Outcome State Fault Refusal :=
  .next { s with core := { s.core with fenceReg := none } }

/-! ## The settings store (R272) -/

/-- The offsets of its two copies on NOR A. -/
def storeAt (k : Nat) : Nat := if k = 0 then 0x7000000 else 0x7080000

/-- Octets of content. -/
def storeLen : Nat := 262440

/-- Copy k is valid: MARK, LEN and the digest. -/
def storeValid (nor : List Host.Cell) (k : Nat) : Bool :=
  let a := storeAt k
  let os := norOctets nor a (16 + storeLen)
  field os 0 2 = 0x5E7A && field os 7 3 = storeLen && norOctets nor (a + 16 + storeLen) 32 = sha256 os

/-- SEQ of copy k. -/
def storeSeqOf (nor : List Host.Cell) (k : Nat) : Nat := field (norOctets nor (storeAt k) 7) 2 5

/-- The copy a start-up uses: the valid one, or of two the one with the higher SEQ. -/
def storeUsed (nor : List Host.Cell) : Option Nat :=
  match storeValid nor 0, storeValid nor 1 with
  | true, true => some (if storeSeqOf nor 0 < storeSeqOf nor 1 then 1 else 0)
  | true, false => some 0
  | false, true => some 1
  | false, false => none

/-- The protection octet of an entry number once every committed write is in force. -/
def protKept (s : State) (e : Nat) : Byte :=
  match s.dict.protNext.find? fun x => x.1 = e / 32 with
  | some x => x.2.getD (e % 32) 0
  | none => protOf s e

/-- The key of a level once every committed write is in force. -/
def keyKept (s : State) (lvl : Nat) : Option Octets :=
  match s.dict.keysNext.find? fun x => x.1 = lvl with
  | some x => some x.2
  | none => s.key lvl

/-- The content of a copy. -/
def storeContent (s : State) : Octets :=
  (List.range 262144).map (protKept s)
    ++ ((List.range 4).flatMap fun l => match keyKept s l with
      | some k => (1 : Byte) :: (k ++ List.replicate 32 (0 : Byte)).take 32
      | none => List.replicate 33 (0 : Byte))
    ++ be 2 s.twin.hold.toNat
    ++ (List.range 18).flatMap fun b =>
      let e := s.evOf b
      be 3 (e.nextL.getD e.sevL).toNat ++ be 3 (e.nextH.getD e.sevH).toNat ++ be 3 e.mask.toNat

/-- A whole copy with its sequence number. -/
def storeCopy (s : State) (seq : Nat) : Octets :=
  let os := [0x5E, 0x7A] ++ be 5 seq ++ be 3 storeLen ++ List.replicate 6 0 ++ storeContent s
  os ++ sha256 os

/-- A new copy over the older one, one SEQ above the newer (R272). -/
def storeWrite (s : State) : State :=
  let used := storeUsed s.norA
  let k := match used with
    | some 0 => 1
    | _ => 0
  let seq := (used.map fun j => storeSeqOf s.norA j + 1).getD 1
  { s with
    norA := cellSetAll 0xFF s.norA (storeAt k) (storeCopy s seq),
    dict := { s.dict with keptSince := none, storeSeq := BitVec.ofNat 36 seq } }

/-- SETTINGS_STORE_WRITE: a kept value has been written. -/
def execSettingsStoreWrite (s : State) : Host.Outcome State Fault Refusal :=
  if s.dict.keptSince.isNone || !s.runs .A then .next s else .next (storeWrite s)

/-- What a start-up restores from a valid copy (R271, R318). -/
def storeRestore (s : State) (k : Nat) : State :=
  let os := norOctets s.norA (storeAt k + 16) storeLen
  let keyAt (l : Nat) : Option Octets :=
    let a := 262144 + 33 * l
    if bitOf (field os a 1) 0 then some (slice os (a + 1) 32) else none
  let evAt (b i : Nat) : Nat := field os (262278 + 9 * b + i) 3
  let prot := ((List.range 262144).zip os).filterMap fun x => if x.2 = floorOf x.1 then none else some x
  let load (b : Nat) (e : EvBlock) : EvBlock :=
    if b = 3 then e
    else { e with
      sevL := if sevWritable b then BitVec.ofNat 18 (evAt b 0) else e.sevL,
      sevH := if sevWritable b then BitVec.ofNat 18 (evAt b 3) else e.sevH, mask := BitVec.ofNat 16 (evAt b 6) }
  { s with
    dict := { s.dict with
      prot := prot, keys := (List.range 4).map keyAt, storeSeq := BitVec.ofNat 36 (storeSeqOf s.norA k) },
    twin := { s.twin with hold := BitVec.ofNat 9 (field os 262276 2) },
    ev := (s.ev.zip (List.range 18)).map fun x => load x.2 x.1 }

/-- The settings at a start-up (an A-die in reset reads none): restored from a copy, the other copy due to be rewritten when it is not valid; or
the delivered ones, with SVC source 143 (R272). -/
def settingsStart (s : State) : State :=
  if !s.runs .A then s
  else match storeUsed s.norA with
  | some k =>
    let s1 := storeRestore s k
    if storeValid s.norA 0 && storeValid s.norA 1 then s1 else keptWrite s1
  | none =>
    fire1 (s.modDict fun d => { d with prot := [], keys := [none, none, none, some s.fus.a.keyWire] }) 143

end Sys2Proof.Machine
end

