-- ==== Sys2Proof/Machine/Startup.lean ====
section
/-!
DEFINITION. Start-up: the end of Fuse read, Self-test and Enrol (R46, R232, R391 to R396, R414), and the SOFT_RESTART that
starts again from Self-test (R306, R396).
-/

namespace Sys2Proof.Machine

/-- The first tide of a start (R46): 2^18 after the latest tide N. -/
def firstTide (n : Tide) : Tide := tideAdd n 262144

/-- The tide begins to run at tide t. -/
def tideBegins (s : State) (t : Tide) : State :=
  { s with tide := { s.tide with running := true, num := t, bNum := t }, pws := { s.pws with firstTide := t } }

/-- A die that runs senses its fuses, once from a power-up on (R369, R374). -/
def senseDie (s : State) (d : Die) : State :=
  if s.runs d && !(s.fus.of d).sensed then s.modFuse d FuseDie.sense else s

/-- Every running die's identity resolves (R368). -/
def identityHolds (s : State) : Bool :=
  (!s.runs .A || s.fus.a.latched.identity .A) && (!s.runs .B || s.fus.b.latched.identity .B)

/-- A hold of RST_N over 10 s is reported in the first tide (R391): source 137 and SYSTEM op 4. -/
def reportHold (s : State) : State :=
  if s.pws.longReport then
    fire1 (recSystem (s.modPws fun p => { p with longReport := false }) 4 (be 3 s.pws.rsth.toNat)) 137
  else s

/-- The recorder finds its newest page without a shutdown record (R414): FLINC and source 141. -/
def reportFlush (s : State) (clean : Bool) : State :=
  if clean then s else fire1 { s with rcd := { s.rcd with flinc := true } } 141

/-- FUSE_READ_DONE: both dies have sensed; `x7` is the coding plug. The first tide begins, in Self-test, and the settings are
restored (R271, R272). -/
def execFuseReadDone (x7 : BitVec 6) (s : State) : Host.Outcome State Fault Refusal :=
  if s.mode ≠ .fuseRead then .next s
  else
    let s1 := senseDie (senseDie { s with twin := { s.twin with unitId := x7 } } .A) .B
    if !identityHolds s1 then
      -- a die without its identity does not leave Fuse read (R368); the tide of an A-die that has it runs (R393, R394)
      let s2 := if s1.fus.a.latched.identity .A then tideBegins s1 (firstTide (recordedTide s1)) else s1
      .next { s2 with mode := .halted }
    else
      let s2 := { tideBegins s1 (firstTide (recordedTide s1)) with mode := .selfTest }
      let s3 := settingsStart (recSystem s2 1 [s2.pws.cause])
      let s4 := senseSources (reportFlush (reportHold s3) (flushedCleanly s1)) .A
      .next (if s.runs .B && !s.fus.b.sensed then senseSources s4 .B else s4)

/-- SHA-256 of the boot image of a NOR device (R28, R394); that of an erased one stands in Config. -/
def imageDigest (nor : List Host.Cell) : Octets :=
  if nor.all fun c => 0x1000000 ≤ c.1 then Config.erasedImage else sha256 ((List.range 0x1000000).map (norGet nor))

/-- The boot image of a die has the digest in its fuses; asked of a die that runs. -/
def bootOk (s : State) (d : Die) : Bool := !s.runs d || imageDigest (match d with | .A => s.norA | .B => s.norB) = (s.fus.of d).wires.boot

/-- The rows of R394 that fail: the one the command brings, the boot images by what the state holds, and, whatever the command
brings, the rails of an island whose supervisor holds its die and a BCON that reads closed. -/
def selfTestFails (s : State) (failed : Option (Fin 7)) : List Nat :=
  let boot := !(bootOk s .A && bootOk s .B)
  (List.range 7).filter fun i =>
    if i = 1 then boot
    else (failed.any fun r => r.val = i) || (i = 3 && (s.pws.railA || s.pws.railB)) || (i = 5 && s.bells.bcon)

/-- SELF_TEST_DONE: passed, the module goes on to Manifest load at the next boundary; a check that fails halts it, with a
record that names it (R394). -/
def execSelfTestDone (failed : Option (Fin 7)) (s : State) : Host.Outcome State Fault Refusal :=
  if s.mode ≠ .selfTest || s.start.modeNext.isSome then .next s
  else match selfTestFails s failed with
    | [] => .next { s with start := { s.start with modeNext := some .load } }
    | rows => .next (rows.foldl (fun s i => recSystem s 5 [BitVec.ofNat 8 (i + 1)]) { s with mode := .halted })

/-- ENROL_FAIL of the port of a node (R238). -/
def enrolFail (s : State) (n : Nat) : State := fire s (54 + 8 * s.netA.nodePort n) 0 (BitVec.ofNat 32 n)

/-- The record of a node that is not enrolled at the end of Enrol (R232). -/
def recUnenrolled (s : State) (n : Nat) : State :=
  let src := 54 + 8 * s.netA.nodePort n
  recEvent s src false 0 (s.sevOf src) (Config.blockOf src) 0 (BitVec.ofNat 32 n) false

/-- Node n is enrolled at the next boundary (R229). -/
def enrolledNext (s : State) (n : Nat) : Bool :=
  s.enrolledNow n || (s.nodes.getD n {}).enrolAt.any fun t => reached (tideAdd s.now 1) t

/-- ENROL_END: at the next boundary every node is enrolled, or 1,024 tides have passed (R232, R392). -/
def execEnrolEnd (s : State) : Host.Outcome State Fault Refusal :=
  if s.mode ≠ .enrol || s.start.modeNext.isSome then .next s
  else
    let out := (List.range s.nodes.length).filter fun n => !enrolledNext s n
    if out.isEmpty || reached (tideAdd s.now 1) (tideAdd s.enrol.since 1024) then
      .next { out.foldl recUnenrolled s with start := { s.start with modeNext := some .live } }
    else .next s

/-- SOFT_RESTART in force (R306, R396): both dies are reset but for fuses and recorder, the power stages run on, and the
module starts again from Self-test. Kept values that no copy holds yet are written first (R315). -/
def softRestart (s : State) : State :=
  let k := burnCut (if s.dict.keptSince.isSome then storeWrite s else s)
  let h := holdDies k
  let base : State := { h with
    mode := .selfTest, rcd := { k.rcd with flinc := false },
    fus := { a := k.fus.a.restarted, b := k.fus.b.restarted },
    a := { h.a with inReset := k.a.inReset }, b := { h.b with inReset := k.b.inReset },
    twin := { h.twin with unitId := k.twin.unitId },
    pws := { k.pws with cause := 4 } }
  settingsStart (recSystem (tideBegins base (firstTide s.now)) 1 [4])

end Sys2Proof.Machine
end

