-- ==== Sys2Proof/Machine/Enrol.lean ====
section
/-!
DEFINITION. What the module does with landed SERVICE and ENROL frames: reassembly of service messages (R224, R226, R246) and
the enrolment of nodes (R228 to R233).
-/

namespace Sys2Proof.Machine

/-! ## SERVICE frames (R224) -/

/-- An assembly belongs to a source and a tag. -/
def Assembly.isFor (x : Assembly) (c : Client) (tag : Byte) : Bool := x.src = c && x.tag = tag

/-- The fragments of an assembly in index order, once all of them are there, with what the B-die's tap keeps of them. -/
def Assembly.message (x : Assembly) : Option (Octets × Option Tap) :=
  match x.last with
  | none => none
  | some n =>
    if (List.range (n + 1)).all fun k => x.parts.any fun p => p.1 = k then
      let ps := (List.range (n + 1)).filterMap fun k => x.parts.find? fun p => p.1 = k
      let taps := ps.filterMap fun p => p.2.2
      some (ps.flatMap fun p => p.2.1,
        if taps.length = ps.length then
          (x.parts.head?.bind fun p => p.2.2).map fun t => { t with octets := taps.flatMap Tap.octets }
        else none)
    else none

/-- A fragment joins its assembly; a repeated index is the same fragment again and is ignored. -/
def Assembly.put (x : Assembly) (k : Nat) (last : Bool) (data : Octets) (tap : Option Tap) : Assembly :=
  if x.parts.any fun p => p.1 = k then x
  else { x with parts := x.parts ++ [(k, data, tap)], last := if last then some k else x.last }

/-- The message types that only the module sends reach the partition's receive ring; all others the service (R274,
R359). -/
def toRing (m : Octets) : Bool := [1, 3, 4, 6].contains (field m 0 1 % 16)

/-- A whole service message of a client. -/
def messageIn (s : State) (c : Client) (m : Octets) (tap : Option Tap) : State :=
  match c with
  | .peer _ =>
    if !toRing m then receive s c m tap
    else if s.unitDown .svc then s
    else s.modSvc fun v => { v with ringIn := v.ringIn ++ [(true, m)] }
  | _ => receive s c m tap

/-- A SERVICE payload of a client is put together. -/
def assemble (s : State) (c : Client) (payload : Octets) (tap : Option Tap) : State :=
  if payload.length < 2 then s
  else
    let o := field payload 0 1
    let tag := payload.getD 1 0
    let old := (s.intake.asm.find? fun x => x.isFor c tag).getD
      { src := c, tag := tag, since := s.now, parts := [], last := none }
    let x := old.put (o % 128) (bitOf o 7) (payload.drop 2) (tap.map fun t => { t with octets := t.octets.drop 2 })
    let rest := s.intake.asm.filter fun y => !y.isFor c tag
    match x.message with
    | some m => messageIn (s.modIntake fun i => { i with asm := rest }) c m.1 m.2
    | none => s.modIntake fun i => { i with asm := rest ++ [x] }

/-- The largest payload of a Hawser frame (R246). -/
def hawserMax : Nat := 4096

/-- What both dies accept of a Hawser frame of a kind (R246): form, lane, IDs, and both signatures under a salt. Answers the
A-die's copy and the B-die's. -/
def hawserCopies (s : State) (l : Lane) (kind : BitVec 4) (maxLen : Nat) (salt fa fb : Octets) : Option (Lst × Lst) :=
  let pa := lstParse s.netA.vid s.netA.etype maxLen fa
  let pb := lstParse s.netB.vid s.netB.etype maxLen fb
  match pa, pb with
  | some a, some b =>
    let ok (d : Die) (f : Lst) : Bool :=
      f.kind = kind && f.lane = l && f.src = s.netA.zone && f.dst = s.netA.zone && sigHolds d salt f
    if s.runs .A && s.runs .B && s.loaded && ok .A a && ok .B b then some (a, b) else none
  | _, _ => none

/-- The A-die's copy of an accepted Hawser frame. -/
def hawserAccept (s : State) (l : Lane) (kind : BitVec 4) (maxLen : Nat) (salt fa fb : Octets) : Option Lst :=
  (hawserCopies s l kind maxLen salt fa fb).map (·.1)

/-- A SERVICE frame of the Hawser: of the other unit, accepted once (R224, R226). -/
def hawserService (s : State) (l : Lane) (fa fb : Octets) : State :=
  match hawserCopies s l 2 210 s.salt fa fb with
  | none => s
  | some (f, g) =>
    match dupTake s.twin.hbWins f with
    | none => s
    | some ws =>
      assemble { s with twin := { s.twin with hbWins := ws } } (.peer f.unit) f.payload
        (some { since := s.now, octets := g.payload })

/-- SERVICE_FRAME_RECEIVED: the oldest landed field copy, or a frame of the Hawser. -/
def execServiceFrameReceived (f : SvcFrame) (s : State) : Host.Outcome State Fault Refusal :=
  match f with
  | .landed =>
    match s.intake.landedSvc with
    | [] => .next s
    | c :: rest => .next (assemble (s.modIntake fun i => { i with landedSvc := rest }) (.field c.port c.f.src) c.f.payload c.tap)
  | .hawser l fa fb => .next (hawserService s l fa fb)

/-- SERVICE_REASSEMBLY_TIMEOUT: messages not complete within 64 tides of their first fragment are discarded. -/
def execServiceReassemblyTimeout (s : State) : Host.Outcome State Fault Refusal :=
  .next (s.modIntake fun i => { i with asm := i.asm.filter fun x => !reached s.now (tideAdd x.since 64) })

/-! ## Enrolment (R228 to R233) -/

/-- LEN of an ENROL payload that a node sends. -/
def enrolLen (op : Nat) : Nat := if op = 0 then 13 else if op = 2 then 21 else 4

/-- The oldest landed ENROL copy of an OP, with the rest of the landed ones. -/
def takeEnrol (s : State) (op : Nat) : Option (RxCopy × State) :=
  match s.intake.landedEnrol.find? fun c => field c.f.payload 0 1 = op with
  | none => none
  | some c =>
    some (c, s.modIntake fun i => { i with landedEnrol := i.landedEnrol.eraseP fun c => field c.f.payload 0 1 = op })

/-- An ENROL frame is acted on: from Enrol on, its LEN and fragment octets as R228 has them. -/
def enrolForm (s : State) (op : Nat) (c : RxCopy) : Bool :=
  s.armedMode && c.f.payload.length = enrolLen op && decide (c.f.src.toNat < s.nodes.length)

/-- A REQUEST of a node (R230): an enrolled one has lost its enrolment, whatever its TYPE; a differing TYPE gets no offer. -/
def nodeRequest (s : State) (n : Nat) (p : Octets) : State :=
  let typ := field p 3 4
  let s1 := s.modNode n fun x => { x with typ := BitVec.ofNat 32 typ, serial := BitVec.ofNat 48 (field p 7 6) }
  if typ ≠ s.netA.nodeType n then
    enrolFail (s1.modNode n fun x => { x with enrolled := false, enrolAt := none, wantOffer := false }) n
  else s1.modNode n fun x =>
    if x.enrolled || x.enrolAt.isSome then
      { x with enrolled := false, enrolAt := none, wantOffer := true, unanswered := 0, slow := false, waiting := false,
               offerAt := none }
    else if !x.slow && !x.waiting then { x with wantOffer := true }
    else x

/-- ENROL_REQUEST. -/
def execEnrolRequest (s : State) : Host.Outcome State Fault Refusal :=
  match takeEnrol s 0 with
  | none => .next s
  | some (c, s1) => .next (if enrolForm s1 0 c then nodeRequest s1 c.f.src.toNat c.f.payload else s1)

/-- An ACCEPT echoes what was offered (R229): a unit that originates offers has one out. -/
def acceptHolds (s : State) (n : Nat) (p : Octets) : Bool :=
  field p 3 4 = (tcrc s.netA n).toNat && slice p 7 4 = s.salt && field p 11 4 = s.netA.nodeType n
    && ((s.nodes.getD n {}).offerAt.isSome || !(s.twin.role = .solo || s.twin.role = .leader))

/-- ENROL_ACCEPT: the node counts as enrolled from the tide after the one that follows the OFFER. -/
def execEnrolAccept (s : State) : Host.Outcome State Fault Refusal :=
  match takeEnrol s 2 with
  | none => .next s
  | some (c, s1) =>
    let n := c.f.src.toNat
    let p := c.f.payload
    if enrolForm s1 2 c && acceptHolds s1 n p then
      .next (s1.modNode n fun x => { x with
        enrolAt := some (tideAdd s1.now 1), typ := BitVec.ofNat 32 (field p 11 4),
        serial := BitVec.ofNat 48 (field p 15 6), unanswered := 0, slow := false, waiting := false, wantOffer := false,
        offerAt := none })
    else .next s1

/-- ENROL_REFUSE: ENROL_FAIL, and slow offering from the last offer on (R230), in every role (R233). -/
def execEnrolRefuse (s : State) : Host.Outcome State Fault Refusal :=
  match takeEnrol s 3 with
  | none => .next s
  | some (c, s1) =>
    let n := c.f.src.toNat
    if enrolForm s1 3 c then
      .next (enrolFail (s1.modNode n fun x => { x with slow := true, waiting := false, wantOffer := false }) n)
    else .next s1

/-- No ACCEPT within 16 tides of an offer: another offer, or ENROL_FAIL and slow offering after four (R230). -/
def offerUnanswered (s : State) (n : Nat) : State :=
  let x := s.nodes.getD n {}
  if x.slow then enrolFail (s.modNode n fun x => { x with waiting := false }) n
  else if 4 ≤ x.unanswered + 1 then
    enrolFail (s.modNode n fun x => { x with waiting := false, unanswered := 4, slow := true }) n
  else s.modNode n fun x => { x with waiting := false, unanswered := x.unanswered + 1, wantOffer := true }

/-- An offer of a node was sent at least k tides ago. -/
def offerAge (s : State) (n k : Nat) : Bool :=
  (s.nodes.getD n {}).offerAt.any fun t => reached s.now (tideAdd t k)

/-- OFFER_TIMEOUT. -/
def execOfferTimeout (n : Fin 8192) (s : State) : Host.Outcome State Fault Refusal :=
  if s.armedMode && (s.nodes.getD n.val {}).waiting && offerAge s n.val 16 then .next (offerUnanswered s n.val)
  else .next s

/-- SLOW_OFFER: 256 tides after the offer before, where there was one. -/
def execSlowOffer (n : Fin 8192) (s : State) : Host.Outcome State Fault Refusal :=
  let x := s.nodes.getD n.val {}
  if s.armedMode && x.slow && !x.enrolled && (x.offerAt.isNone || offerAge s n.val 256) then
    .next (s.modNode n.val fun x => { x with wantOffer := true, waiting := false })
  else .next s

end Sys2Proof.Machine
end

