-- ==== Sys2Proof/Machine/Gangway.lean ====
section
/-!
DEFINITION. The Gangway and the comparison: heartbeats (R25, R48, R168), failed frames (R24), group signatures, digests,
verdicts and final moor sets (R56, R164 to R169, R329), and the mirror of the B-die's registers (R316).
-/

namespace Sys2Proof.Machine

/-! ## Frames on the links -/

/-- What waits for die d on its link. -/
def State.gwFor (s : State) (d : Die) : List GwFrame :=
  match d with
  | .A => s.ba
  | .B => s.ab

/-- Replace what waits for die d. -/
def State.setGwFor (s : State) (d : Die) (q : List GwFrame) : State :=
  match d with
  | .A => { s with ba := q }
  | .B => { s with ab := q }

/-- Change one die. -/
def State.modDie (s : State) (d : Die) (f : DieState → DieState) : State := s.setDie d (f (s.die d))

/-- A frame is a heartbeat. -/
def GwFrame.isHeartbeat : GwFrame → Bool
  | .heartbeat _ _ => true
  | _ => false

/-- A frame carries signatures or a digest. -/
def GwFrame.isSig : GwFrame → Bool
  | .sigs _ _ => true
  | .digest _ => true
  | _ => false

/-- A frame is a verdict. -/
def GwFrame.isVerdict : GwFrame → Bool
  | .verdict _ => true
  | _ => false

/-- A frame is a moor-set frame. -/
def GwFrame.isDegrade : GwFrame → Bool
  | .degrade _ => true
  | _ => false

/-- A source of GWY found by die d. -/
def gwyFire (s : State) (d : Die) (src : Nat) (gs : GSet) : State := fireAt s src gs 0 (d = .B)

/-! ## Heartbeats -/

/-- The B-die starts tide `num`: one higher than its last, or TIDE source 6 fires (R48). -/
def heartbeatAtB (s : State) (num : Tide) : State :=
  if num = s.tide.bNum then s
  else
    let s1 : State := { s with tide := { s.tide with bNum := num } }
    if num = s.tide.bNum + 1 then s1 else fireAt s1 6 0 0 true

/-- HEARTBEAT_ARRIVAL_B: the first heartbeat that waits for the B-die. -/
def execHeartbeatArrivalB (s : State) : Host.Outcome State Fault Refusal :=
  if !s.runs .B then .next s
  else match s.ab.find? GwFrame.isHeartbeat with
    | some (.heartbeat num _) => .next (heartbeatAtB s num)
    | _ => .next s

/-- The deviation source of die d: GWY 18 on the A-die, EVB 40 on the B-die (R25, R182, R322). -/
def devSource : Die → Nat
  | .A => 18
  | .B => 40

/-- The source of a lost heartbeat on die d (R182, R322). -/
def lossSource : Die → Nat
  | .A => 19
  | .B => 41

/-- GANGWAY_HEARTBEAT_RECEIVED by die d: `devPpm` is the deviation it measures of the other die's clock, in millionths. -/
def execGangwayHeartbeatReceived (d : Die) (devPpm : Int) (s : State) : Host.Outcome State Fault Refusal :=
  if !s.runs d then .next s
  else match takeFrame (s.gwFor d) GwFrame.isHeartbeat with
    | some (.heartbeat _ crc, q) =>
      let s1 := s.setGwFor d q
      let s2 := if 5000 < devPpm.natAbs then fire1 s1 (devSource d) else s1
      .next (if crc = (s2.die d).finalCrc then s2 else gwyFire s2 d 16 0)
    | _ => .next s

/-- GANGWAY_HEARTBEAT_TIMEOUT at die d. -/
def execGangwayHeartbeatTimeout (d : Die) (s : State) : Host.Outcome State Fault Refusal :=
  .next (if s.runs d then fire1 s (lossSource d) else s)

/-- GANGWAY_FRAME_CRC_FAIL at die d: the frame in front of its link is discarded and counted; GWY 14. -/
def execGangwayFrameCrcFail (d : Die) (s : State) : Host.Outcome State Fault Refusal :=
  if !s.runs d then .next s
  else match s.gwFor d with
    | [] => .next s
    | _ :: q => .next (gwyFire ((s.setGwFor d q).modDie d fun x => { x with dropped := x.dropped + 1 }) d 14 0)

/-! ## Signatures and digests (R56, R166) -/

/-- A channel's overrun (R56): which groups of its result are incomplete is a free value (log 39). -/
def overrun (s : State) (src : Nat) : State :=
  fire { budgetCount s 6 with draws := s.draws + 1 } src (Config.incomplete s.draws) 0

/-- Overruns at the start of comparison (R56). -/
def overruns (s : State) : State :=
  let s1 := if s.a.armed && !s.tide.aDone then overrun s 0 else s
  if s.a.armed && !s.tide.bDone then overrun s1 1 else s1

/-- Die d computes and sends its signatures and its digest. -/
def signDie (s : State) (d : Die) : State :=
  if !s.runs d || !(s.die d).armed then s
  else
    let sigs := groupSigs s d
    let dig := wholeDigest s d sigs
    let s1 := s.modDie d fun x => { x with sigs := sigs, dig := dig }
    let s2 := (List.range 64).foldl (fun s k => gwSend s d (.sigs k ((sigs.drop (8 * k)).take 8))) s1
    gwSend s2 d (.digest dig)

/-- COMPARISON_START. -/
def execComparisonStart (s : State) : Host.Outcome State Fault Refusal :=
  if !s.tide.running || 2 ≤ s.tide.ph.toNat then .next s
  else .next (signDie (signDie (overruns (enterPhase s 2 1500)) .A) .B)

/-- SIGNATURE_FRAME_RECEIVED by die d: kept up to its deadline. -/
def execSignatureFrameReceived (d : Die) (s : State) : Host.Outcome State Fault Refusal :=
  if !s.runs d then .next s
  else match takeFrame (s.gwFor d) GwFrame.isSig with
    | some (f, q) =>
      let s1 := s.setGwFor d q
      if (s.die d).sigDeadline then .next s1
      else match f with
        | .sigs k vals => .next (s1.modDie d fun x => { x with otherSigs := x.otherSigs ++ [(k, vals)] })
        | .digest dg => .next (s1.modDie d fun x => { x with otherDig := some dg })
        | _ => .next s1
    | none => .next s

/-- Whether the frame with group g's signature has arrived. -/
def DieState.sigFrame (x : DieState) (g : Nat) : Option (BitVec 32) :=
  (x.otherSigs.find? fun y => y.1 = g / 8).map fun y => y.2.getD (g % 8) 0

/-- The groups whose signatures differ. -/
def DieState.differing (x : DieState) : GSet :=
  gOf ((List.range 512).filter fun g => match x.sigFrame g with
    | some v => v ≠ x.sigs.getD g 0
    | none => false)

/-- The groups whose signature frame is missing. -/
def DieState.missing (x : DieState) : GSet := gOf ((List.range 512).filter fun g => (x.sigFrame g).isNone)

/-- How many groups a set holds. -/
def gCount (g : GSet) : Nat := (gList g).length

/-- A die's verdict (R167). Groups that an overrun leaves incomplete are not compared, nor is a digest then (R56). -/
def formVerdict (s : State) (d : Die) : State :=
  let x := s.die d
  if !s.runs d || !x.armed || x.sigDeadline then s
  else
    let diff := gMinus x.differing x.found
    let miss := gMinus x.missing x.found
    let whole := x.found = 0
    let digMiss := whole && x.otherDig.isNone
    let digDiff := whole && x.otherDig.any fun dg => dg ≠ x.dig
    let listed := diff ||| miss
    let many := 15 < gCount listed
    let moor := digMiss || digDiff || many
    let s1 := s.modDie d fun x => { x with
      sigDeadline := true, verdictMoor := moor, many := many,
      verdict := if moor then [] else (gList listed).map fun g => BitVec.ofNat 9 g }
    let s2 := if digDiff then gwyFire s1 d 10 0 else s1
    let s3 := if digMiss then gwyFire s2 d 11 0 else s2
    let s4 := if diff ≠ 0 then gwyFire s3 d 8 diff else s3
    if miss ≠ 0 then gwyFire s4 d 9 miss else s4

/-- SIGNATURE_DEADLINE. -/
def execSignatureDeadline (s : State) : Host.Outcome State Fault Refusal :=
  if s.tide.running && s.tide.ph = 2 then .next (formVerdict (formVerdict (reachTick s 1560) .A) .B) else .next s

/-! ## Verdicts and final moor sets (R167 to R169, R329) -/

/-- The verdict frame of 32 octets (R167): MOOR in bit 15 and the count in bits 3:0, then fifteen entries, those behind the
listed groups 0xFFFF; with MOOR the count is 0. -/
def verdictOctets (moor : Bool) (groups : List (BitVec 9)) : Octets :=
  let gs := if moor then [] else groups.take 15
  be 2 (b2n moor * 32768 + gs.length) ++ gs.flatMap (fun g => be 2 g.toNat) ++ List.replicate (2 * (15 - gs.length)) 0xFF

/-- What a verdict frame says: MOOR and the groups of its first n entries. -/
def verdictRead (os : Octets) : Bool × List (BitVec 9) :=
  let w := field os 0 2
  (bitOf w 15, (List.range (w % 16)).map fun i => BitVec.ofNat 9 (field os (2 + 2 * i) 2))

/-- Die d sends its verdict and its moor-set frame: the groups its Degrade reactions have added in the tide (R329). The
groups of its comparison findings stand in the verdict. -/
def sendVerdict (s : State) (d : Die) : State :=
  let x := s.die d
  if s.runs d && x.armed then gwSend (gwSend s d (.verdict (verdictOctets x.verdictMoor x.verdict))) d (.degrade x.degrade)
  else s

/-- VERDICT_EXCHANGE: from here on a Degrade reaction counts for the next tide. -/
def execVerdictExchange (s : State) : Host.Outcome State Fault Refusal :=
  if !s.tide.running || s.tide.ph ≠ 2 || s.moor.exchanged then .next s
  else
    let s1 := formVerdict (formVerdict (reachTick s 1575) .A) .B
    let s2 := sendVerdict (sendVerdict s1 .A) .B
    .next { s2 with moor := { s2.moor with exchanged := true } }

/-- VERDICT_FRAME_RECEIVED by die d: the verdict and the moor-set frame that wait. -/
def execVerdictFrameReceived (d : Die) (s : State) : Host.Outcome State Fault Refusal :=
  if !s.runs d then .next s
  else
    let open0 := !(s.die d).formed
    let s1 := match takeFrame (s.gwFor d) GwFrame.isVerdict with
      | some (.verdict os, q) =>
        (s.setGwFor d q).modDie d fun x => if open0 then { x with otherVerdict := some (verdictRead os) } else x
      | _ => s
    match takeFrame (s1.gwFor d) GwFrame.isDegrade with
    | some (.degrade gs, q) =>
      .next ((s1.setGwFor d q).modDie d fun x => if open0 then { x with otherDegrade := some gs } else x)
    | _ => .next s1

/-- The groups of a verdict. -/
def verdictSet (l : List (BitVec 9)) : GSet := gOf (l.map (·.toNat))

/-- What a die's final moor set is (R167, R329). -/
def DieState.finalSet (x : DieState) : GSet :=
  verdictSet x.verdict ||| verdictSet ((x.otherVerdict.map (·.2)).getD []) ||| x.found ||| x.degrade
    ||| x.otherDegrade.getD 0

/-- A group enters a final set (R169): counted once in a tide. -/
def groupEnters (s : State) (g : Nat) : State :=
  if s.groupMoored g || s.moor.entries.contains (g, s.now) then s
  else { s with moor := { s.moor with
    entries := (s.moor.entries.filter fun e => later (tideAdd e.2 4096) s.now) ++ [(g, s.now)] } }

/-- A group has entered a final set for the third time within 4,096 tides, in this tide. -/
def groupRepeats (s : State) (g : Nat) : Bool :=
  s.moor.entries.contains (g, s.now) && 3 ≤ countIf s.moor.entries (fun e => e.1 = g)

/-- The CRC a heartbeat carries of a final moor set (R168): its 64 octets, then one octet with MOOR. -/
def finalCrcOf (g : GSet) (moor : Bool) : BitVec 32 := crc32c (gsetOct g ++ [BitVec.ofNat 8 (b2n moor)])

/-- MOOR in a verdict: the die decides to moor the module (R167, R330). -/
def verdictMoors (s : State) (d : Die) : State :=
  let s1 := moorDecide s d none
  if d = .A then moorEffects s1 else s1

/-- Die d forms its final moor set. -/
def formFinal (s : State) (d : Die) : State :=
  let x := s.die d
  if !s.runs d || !x.armed || x.formed then s
  else
    let gap := x.otherVerdict.isNone || x.otherDegrade.isNone
    let fset := x.finalSet
    let many := x.many || 15 < gCount fset
    let moor := x.verdictMoor || (x.otherVerdict.map (·.1)).getD false || many
    let s1 := s.modDie d fun x => { x with
      final := fset, finalMoor := moor, finalCrc := finalCrcOf fset moor, formed := true }
    let s2 := if many then gwyFire s1 d 12 0 else s1
    let s3 := if moor && (!s2.moor.pendM || !(s2.die d).mooring) then verdictMoors s2 d else s2
    let s4 := (gList fset).foldl groupEnters s3
    let s5 := if (gList fset).any (groupRepeats s4) then gwyFire s4 d 13 0 else s4
    if gap then gwyFire s5 d 15 0 else s5

/-- VERDICT_DEADLINE of die d. -/
def execVerdictDeadline (d : Die) (s : State) : Host.Outcome State Fault Refusal :=
  if s.tide.running && s.tide.ph = 2 then
    .next (formFinal (reachTick s 1620) d)
  else .next s

/-! ## The mirror of the B-die's registers (R316, R379) -/

/-- B_STATUS_MIRROR: the event registers of EVB, FUS.STAT and FUS.REG of the B-die, and the taps' signature counts; the
stamps latched by a read stay. -/
def execBStatusMirror (s : State) : Host.Outcome State Fault Refusal :=
  if s.tide.ph ≠ 5 || !s.runs .A || !s.runs .B then .next s
  else
    .next { s with
      ev := listMod s.ev 3 fun e => { s.evb with snapTide := e.snapTide, snapTick := e.snapTick },
      evbRegs := fusStat s .B :: (List.range 32).map fun r => s.fus.b.used.reg r,
      ports := s.ports.map fun p => { p with sigb := p.sigbLive } }

end Sys2Proof.Machine
end

