-- ==== Sys2Proof/Machine/Twin.lean ====
section
/-!
DEFINITION. The twin pair over the Hawser: HEARTBEAT and MIRROR frames (R246 to R249), roles (R257 to R263), commands and
commits in a pair (R255, R256).
-/

namespace Sys2Proof.Machine

/-! ## What a heartbeat says (R247) -/

/-- ROLE of a heartbeat payload. -/
def hbRole (p : Octets) : Nat := field p 0 1

/-- MOORED. -/
def hbMoored (p : Octets) : Bool := bitOf (field p 2 1) 7

/-- CCONF. -/
def hbConf (p : Octets) : Bool := bitOf (field p 2 1) 5

/-- CREF. -/
def hbRef (p : Octets) : Bool := bitOf (field p 2 1) 4

/-- PER. -/
def hbPer (p : Octets) : Nat := field p 2 1 % 8

/-- UNIT_ID bits 5:1. -/
def hbStation (p : Octets) : Nat := field p 3 1 % 32

/-- The active digest. -/
def hbDigest (p : Octets) : Octets := slice p 9 32

/-- FMOOR. -/
def hbFmoor (p : Octets) : GSet := gsetOf (slice p 41 64)

/-- A heartbeat shows ROLE Leader. -/
def hbLeads (p : Octets) : Bool := hbRole p = 1

/-! ## Sending a heartbeat -/

/-- The HEARTBEAT payload of the unit. -/
def heartbeatPayload (s : State) : Octets :=
  let t := s.twin
  [BitVec.ofNat 8 t.role.code, BitVec.ofNat 8 (moduleState s),
   BitVec.ofNat 8 (b2n s.faultMoored * 128 + b2n t.adopt * 64 + b2n (t.cconf && t.role = .follower) * 32
     + b2n t.cref * 16 + s.tide.per.toNat),
   BitVec.ofNat 8 (b2n t.hbPrevA * 128 + b2n t.hbPrevB * 64 + t.unitId.toNat / 2)]
    ++ be 5 t.peerTide.toNat ++ s.man.active ++ gsetOct s.moor.faultG

/-- The Hawser lanes that are up. -/
def hawserLanes (s : State) : List Lane := [Lane.A, Lane.B].filter s.twin.up

/-- The zone ID a Hawser frame carries. -/
def hawserZone (s : State) : Word := if s.loaded then s.netA.zone else Config.zoneUnloaded

/-- A HEARTBEAT on a lane. -/
def heartbeatLst (s : State) (l : Lane) : Lst :=
  lstSign [0, 0, 0, 0] { kind := 8, src := hawserZone s, dst := hawserZone s, tide := s.now, lane := l, unit := s.unitBit,
                         subseq := 0, payload := heartbeatPayload s, sigA := 0, sigB := 0 }

/-- At each tide start a unit with TWIN = 1 whose A-die runs sends a HEARTBEAT on both lanes, and so does a halted one
(R246, R394). -/
def heartbeatSend (s : State) : State :=
  if s.runs .A && ((s.loaded && s.netA.twin) || s.mode = .halted) then
    s.sendAll ((hawserLanes s).map fun l => .lst (.hawser l) (heartbeatLst s l))
  else s

/-! ## Receiving one (R258) -/

/-- A copy has landed on a lane in this tide (R247, R265), and is this tide's heartbeat where it carries the tide in progress,
as a unit in Resync may just have adopted it (R258, R259). -/
def laneHears (s : State) (l : Lane) (f : Lst) : State :=
  let on := f.tide = s.now
  s.modTwin fun t => match l with
    | .A => { t with hbA := true, hbOnA := t.hbOnA || on }
    | .B => { t with hbB := true, hbOnB := t.hbOnB || on }

/-- The groups that differ outside every local group. -/
def State.farDiff (s : State) : GSet := gMinus s.twin.groupDiff s.netA.localGroups

/-- A Resync unit adopts the tide number and the period of a Leader (R46, R258, R393). -/
def adoptTide (s : State) (t : Tide) (per : Nat) : State :=
  let p : BitVec 3 := if per = 1 || per = 2 || per = 4 then BitVec.ofNat 3 per else s.tide.per
  let s1 : State := { s with tide := { s.tide with num := t, bNum := t, per := p, perNext := none } }
  if t = s.now then s1 else s1.modIntake fun i => { i with prevB := [] }

/-- Resync hears its peer (R258, R262, R263): a tide counts once. -/
def resyncHears (s : State) (f : Lst) : State :=
  let p := f.payload
  if hbLeads p then
    let good := hbDigest p = s.man.active && !s.faultMoored && s.twin.adopt && s.farDiff = 0
    let first := !s.twin.leaderNow
    let n : Word := if !good then 0 else if first then sat18 s.twin.resyncCnt else s.twin.resyncCnt
    let s1 := (adoptTide s f.tide (hbPer p)).modTwin fun t => { t with
      resyncCnt := n, resyncHb := t.resyncHb + b2n first, noLeader := 0, leaderNow := true }
    if 64 ≤ n.toNat && s.twin.segs = 0xFFFF then rolePlan s1 .follower 8 else s1
  else s.modTwin fun t => { t with noLeader := t.noLeader + 1 }

/-- A Leader hears its peer: two Leaders (R258), and the confirmation of a pair commit (R256). -/
def leaderHears (s : State) (p : Octets) : State :=
  let s1 := if hbLeads p && s.unitBit then rolePlan s .resync 10 else s
  if s1.man.stage = 6 && s1.twin.cop = 1 then
    if hbRef p || hbRole p ≠ 2 then commitRefuse s1
    else if hbConf p then commitReady (s1.modTwin fun t => { t with cconf := true }) true
    else s1
  else s1

/-- A Follower hears its peer (R256 to R258). -/
def followerHears (s : State) (p : Octets) : State :=
  if !hbLeads p || hbMoored p then rolePlan s .leader 2
  else if hbDigest p ≠ s.man.active then
    let s1 := if s.man.stage = 6 && s.man.confirmed && hbDigest p = s.man.stageDig && s.man.forceAt.isNone then
      s.modMan fun m => { m with forceAt := some (tideAdd s.now 1) } else s
    rolePlan s1 .resync 9
  else if hbPer p ≠ s.per then rolePlan s .resync (Config.unlistedCause 0)
  else s

/-- A peer heartbeat is accepted. -/
def peerHears (s : State) (f : Lst) : State :=
  let p := f.payload
  let s1 := s.modTwin fun t => { t with peer := p, peerTide := f.tide }
  let s2 := fireIf s1 (hbDigest p ≠ s1.man.active) 86
  match s2.twin.role with
  | .solo => s2
  | .resync => resyncHears s2 f
  | .leader => leaderHears s2 p
  | .follower => followerHears s2 p
  | _ => rolePlan s2 (if hbLeads p then .resync else .leader) 7

/-- HAWSER_HEARTBEAT_RECEIVED: `fa` and `fb` are the frame as each die received it. A unit of the same identity or another
station, or a heartbeat at a Solo unit, is HWS 88. -/
def execHawserHeartbeatReceived (l : Lane) (fa fb : Octets) (s : State) : Host.Outcome State Fault Refusal :=
  match hawserAccept s l 8 105 [0, 0, 0, 0] fa fb with
  | none => .next s
  | some f =>
    if f.payload.length ≠ 105 then .next s
    else if s.twin.role = .solo || !s.netA.twin || f.unit = s.unitBit
        || hbStation f.payload ≠ s.twin.unitId.toNat / 2 then .next (fire1 s 88)
    else
      .next (laneHears (match dupTake s.twin.hbWins f with
        | none => s
        | some ws => peerHears (s.modTwin fun t => { t with hbWins := ws }) f) l f)

/-! ## Loss (R259, R260) -/

/-- The unit takes part in a pair. -/
def State.pairs (s : State) : Bool := s.loaded && s.netA.twin && s.runs .A && s.twin.role ≠ .solo

/-- A lane that has no heartbeat of this tide is counted; 82 from the third tide in a row on. -/
def laneMisses (s : State) (l : Lane) : State :=
  match l with
  | .A =>
    if s.twin.hbOnA then s.modTwin fun t => { t with missA := 0 }
    else fireIf (s.modTwin fun t => { t with missA := t.missA + 1, hbMissA := sat18 t.hbMissA }) (2 ≤ s.twin.missA) 82
  | .B =>
    if s.twin.hbOnB then s.modTwin fun t => { t with missB := 0 }
    else fireIf (s.modTwin fun t => { t with missB := t.missB + 1, hbMissB := sat18 t.hbMissB }) (2 ≤ s.twin.missB) 82

/-- The pair is settled (R259). -/
def settled (t : TwinSt) : Bool :=
  t.peer ≠ [] && match t.role with
    | .leader => 2 ≤ hbRole t.peer && hbRole t.peer ≤ 5
    | .follower => hbLeads t.peer && !hbMoored t.peer
    | _ => true

/-- What the loss of the heartbeat does to the role, once, when the heartbeat is lost: while unsettled R260 goes on from here,
and what it decides stands until a heartbeat lands again. -/
def lossDecide (s : State) : State :=
  let s1 := s.modTwin fun t => { t with lost := true }
  if s.twin.lost then s
  else match s.twin.role with
  | .leader => if settled s.twin then s1 else s1.modTwin fun t => { t with unsettled := some 0 }
  | .follower => if settled s.twin then rolePlan s1 .isoSending 3 else s1.modTwin fun t => { t with unsettled := some 0 }
  | _ => s1

/-- HEARTBEAT_DEADLINE: 50 µs into the tide. -/
def execHeartbeatDeadline (s : State) : Host.Outcome State Fault Refusal :=
  if !s.pairs || !s.tide.running then .next s
  else
    let s1 := laneMisses (laneMisses (reachTick s 50) .A) .B
    if s.twin.hbOnA || s.twin.hbOnB then .next (s1.modTwin fun t => { t with unsettled := none, lost := false })
    else .next (lossDecide (fire1 s1 83))

/-! ## The mirror, sent (R248) -/

/-- The commanded moor set from the start of the next tide: groups, and whether the module is in it (R305). -/
def nextCmd (s : State) : GSet × Bool :=
  let m := s.moor
  let rem := gMinus m.remG (m.addG ||| m.newG)
  let t : GSet := if s.man.forceAt = some (tideAdd s.now 1) && !s.man.fromLoad then s.man.touch else 0
  (gMinus m.cmdG rem ||| m.addG ||| t, (m.cmdM && !(m.remM && !m.newM)) || m.addM)

/-- ENBITS of the segment of a tide. -/
def enbits (s : State) : Octets :=
  let seg := s.now.toNat % 16
  (List.range 64).map fun i =>
    BitVec.ofNat 8 ((List.range 8).foldl (fun a b => a + b2n (s.enrolledNow (512 * seg + 8 * i + b)) * 2 ^ b) 0)

/-- The offer list of a control block. -/
def offerOctets (l : List (Nat × Bool)) : Octets :=
  (((l.map fun (x : Nat × Bool) => be 2 (b2n x.2 * 32768 + x.1)) ++ List.replicate 64 [0xFF, 0xFF]).take 64).flatten

/-- A period change is in progress in tide s or s + 1 of R257. -/
def State.perChange (s : State) : Bool := s.twin.pper ≠ 0 && later s.twin.ptide s.now && tideGap s.twin.ptide s.now ≤ 2

/-- The record stream of a die (R248). -/
def recordStream (s : State) (d : Die) : Octets :=
  ((s.die d).net.getD Net.empty).mirrored.flatMap fun k =>
    be 3 k ++ wordsOct (mirrorEnc ((s.die d).inst.getD k .none))

/-- The control block of 384 octets. -/
def controlBlock (s : State) (rlen : Nat) (offers : List (Nat × Bool)) : Octets :=
  let t := s.twin
  let c := nextCmd s
  be 2 (1 + (rlen + 4095) / 4096) ++ be 3 rlen ++ [BitVec.ofNat 8 (b2n c.2), t.cop]
    ++ be 5 (if t.cop = 2 then t.ctide.toNat else 0)
    ++ (if t.cop = 0 then List.replicate 32 0 else t.cdigest) ++ gsetOct c.1 ++ s.man.enrolledDig
    ++ [BitVec.ofNat 8 (s.now.toNat % 16)] ++ enbits s ++ [BitVec.ofNat 8 offers.length] ++ offerOctets offers
    ++ [if s.perChange then t.pper.setWidth 8 else 0] ++ be 5 (if s.perChange then t.ptide.toNat else 0)
    ++ List.replicate 44 0

/-- The payloads of a die's mirror frames. -/
def mirrorPayloads (s : State) (d : Die) (offers : List (Nat × Bool)) : List Octets :=
  let st := recordStream s d
  (controlBlock s st.length offers ++ (s.die d).sigs.flatMap fun x => be 4 x.toNat) :: pieces 4096 (st.length + 1) st

/-- The mirror frames on the lanes that are up: the A-signature over Channel A's content, the B-signature over Channel B's
(R24). -/
def mirrorFrames (s : State) (offers : List (Nat × Bool)) : List Tx :=
  let ps := (mirrorPayloads s .A offers).zip (mirrorPayloads s .B offers)
  (hawserLanes s).flatMap fun l => (ps.zip (List.range ps.length)).map fun x =>
    .lst (.hawser l) (lstSign2 (s.man.active.take 4)
      { kind := 9, src := s.netA.zone, dst := s.netA.zone, tide := s.now, lane := l, unit := s.unitBit,
        subseq := BitVec.ofNat 9 x.2, payload := x.1.1, sigA := 0, sigB := 0 } x.1.2)

/-! ## Offers of a tide (R225, R230, R231, R248) -/

/-- Frames of an OFFER to a node. -/
def offerFrames (n : Net) (node : Nat) : Nat := 1 + ((n.slots node 1).length + (n.slots node 2).length + 68) / 69

/-- A withdrawal of every enrolment takes effect at the next boundary. -/
def withdrawNext (s : State) : Bool :=
  (s.tide.perNext.any fun x => x.2 = tideAdd s.now 1) || (s.man.forceAt = some (tideAdd s.now 1) && s.man.netchg)

/-- WITHDRAW goes to every node in this tide (R231). -/
def zoneWithdraws (s : State) : Bool :=
  s.armedMode && (withdrawNext s || s.enrol.withdrawTo.any fun t => reached t s.now)

/-- Offers may be sent: no WITHDRAW undoes them. -/
def offersMay (s : State) : Bool :=
  !zoneWithdraws s && (s.enrol.offersFrom.all fun t => reached s.now t)

/-- MOOR frames a lane has had in this tide. -/
def moorSpent (s : State) : Nat := b2n (decide (s.moor.moorFrameAt = some s.now))

/-- SERVICE, ENROL and MOOR frames that a lane of each port has had or holds over (R225). -/
def spentFrames (s : State) : List Nat := (List.range 4).map fun p => moorSpent s + (s.port p).held.length

/-- The nodes offered in this tide in ascending order, with W, as far as the 64 frames of each lane reach (a Leader names
64 nodes at most). -/
def offerPlan (s : State) : List (Nat × Bool) :=
  if !offersMay s then []
  else
    let n := s.netA
    ((List.range s.nodes.length).foldl (fun (acc : List (Nat × Bool) × List Nat) k =>
      let x := s.nodes.getD k {}
      let p := n.nodePort k
      let need := offerFrames n k + b2n x.withdraw
      if x.wantOffer && acc.1.length < 64 + (if s.twin.role = .leader then 0 else 8192)
          && acc.2.getD p 0 + need ≤ 64 then (acc.1 ++ [(k, x.withdraw)], listMod acc.2 p fun u => u + need)
      else acc) ([], spentFrames s)).1

/-! ## The start of mirroring -/

/-- Commands a Leader executed before this point commit (R255). -/
def queuedCommit (s : State) : State :=
  let m := s.moor
  { s with moor := { m with
      addG := m.addG ||| m.qAddG, addM := m.addM || m.qAddM, remG := m.remG ||| m.qRemG, remM := m.remM || m.qRemM,
      remFG := m.remFG ||| m.qRemFG, remFM := m.remFM || m.qRemFM,
      qAddG := 0, qAddM := false, qRemG := 0, qRemM := false, qRemFG := 0, qRemFM := false } }

/-- The Leader mirrors this tide: a peer heartbeat has landed in it, and both channels have committed it (R246). -/
def mirrors (s : State) : Bool :=
  s.twin.role = .leader && (s.twin.hbA || s.twin.hbB) && s.tide.cfence && s.a.armed && s.b.armed && s.runs .A && s.runs .B

/-- MIRRORING_START. -/
def execMirroringStart (s : State) : Host.Outcome State Fault Refusal :=
  if !s.tide.running || 3 ≤ s.tide.ph.toNat then .next s
  else
    let s1 := proofCross (queuedCommit (enterPhase s 3 1650))
    if mirrors s1 then
      let os := offerPlan s1
      .next (s1.modTwin fun t => { t with offers := some os, mirQueue := mirrorFrames s1 os })
    else .next s1

/-- MIRROR_LATE: what is not handed over by emission start is not sent; TIDE source 3 (R58). -/
def execMirrorLate (s : State) : Host.Outcome State Fault Refusal :=
  if s.tide.ph ≠ 3 || s.twin.mirQueue = [] then .next s
  else .next (fire1 (s.modTwin fun t => { t with mirQueue := [] }) 3)

/-! ## The mirror, received (R249) -/

/-- MIRROR_FRAME_RECEIVED: a frame of this tide of the other unit lands; each die keeps its own copy. -/
def execMirrorFrameReceived (l : Lane) (fa fb : Octets) (s : State) : Host.Outcome State Fault Refusal :=
  match hawserAccept s l 9 hawserMax (s.man.active.take 4) fa fb, lstParse s.netB.vid s.netB.etype hawserMax fb with
  | some f, some g =>
    if f.tide ≠ s.now || f.unit = s.unitBit || 4 < s.tide.ph.toNat || s.twin.mirChecked then .next s
    else match dupTake s.twin.hbWins f with
      | none => .next s
      | some ws =>
        let k := f.subseq.toNat
        .next (s.modTwin fun t => { t with
          hbWins := ws, mirA := t.mirA ++ [(k, f.payload)], mirB := t.mirB ++ [(k, g.payload)],
          f0Now := t.f0Now || (k = 0 && decide (s.tide.ph.toNat < 4)) })
  | _, _ => .next s

/-- A frame of a mirror. -/
def mirFrame (m : List (Nat × Octets)) (k : Nat) : Option Octets := (m.find? fun x => x.1 = k).map (·.2)

/-- Frame 0 of a mirror; empty where it is missing. -/
def mirZero (m : List (Nat × Octets)) : Octets := (mirFrame m 0).getD []

/-- The record stream of a mirror. -/
def mirStream (m : List (Nat × Octets)) : Octets :=
  (List.range (field (mirZero m) 0 2 - 1)).flatMap fun k => (mirFrame m (k + 1)).getD []

/-- The groups whose signature in frame 0 differs from the unit's own. -/
def mirDiff (s : State) : GSet :=
  let z := mirZero s.twin.mirA
  if z = [] then 0
  else gOf ((List.range 512).filter fun g => field z (384 + 4 * g) 4 ≠ (s.a.sigs.getD g 0).toNat)

/-- The instance indices of a record stream, as far as it follows the unit's own section 7. -/
def streamFollows (s : State) (st : Octets) : Bool :=
  (s.netA.mirrored.foldl (fun (acc : Octets × Bool) k =>
    let w := mirrorWords (s.netA.inst k).op.toNat
    (acc.1.drop (3 + 3 * w), acc.2 && decide (3 ≤ acc.1.length) && field acc.1 0 3 = k)) (st, true)).2

/-- Every frame of the mirror is on the list. -/
def mirWhole (s : State) : Bool :=
  let z := mirZero s.twin.mirA
  z ≠ [] && (List.range (field z 0 2)).all fun k => (mirFrame s.twin.mirA k).isSome

/-- RLEN and the indices agree with the unit's own. -/
def mirAgrees (s : State) : Bool :=
  field (mirZero s.twin.mirA) 2 3 = s.netA.recordLen && streamFollows s (mirStream s.twin.mirA)

/-- How long each group has differed (R263). -/
def diffRuns (old : List (Nat × Nat)) (now : GSet) : List (Nat × Nat) :=
  (gList now).map fun g => (g, 1 + ((old.find? fun x => x.1 = g).map (·.2)).getD 0)

/-- The unit handles mirrors (R249). -/
def State.adopts (s : State) : Bool :=
  (s.twin.role = .follower || s.twin.role = .resync) && s.pairs && s.a.armed && s.b.armed

/-- MIRROR_COMPLETENESS_CHECK at the end of the emission phase. -/
def execMirrorCompletenessCheck (s : State) : Host.Outcome State Fault Refusal :=
  if !s.adopts || !s.runs .B || s.tide.ph.toNat < 4 || s.twin.mirChecked then .next s
  else
    let diff := mirDiff s
    let far := gMinus diff s.netA.localGroups
    let ok := mirWhole s && mirAgrees s
    let s1 := s.modTwin fun t =>
      let t1 := if mirZero t.mirA ≠ [] && far = 0 then healthAdd t 2 1 else t
      { t1 with
        mirChecked := true, mirList := t.mirA.map (·.1), nfr := BitVec.ofNat 5 t.mirA.length, f0 := t.f0Now,
        groupDiff := diff, gdiff := BitVec.ofNat 18 (gCount diff), diffRun := diffRuns t.diffRun far, mirOk := ok,
        mirMiss := if ok then t.mirMiss else sat18 t.mirMiss }
    if ok then .next s1 else .next (fire1 s1 (if mirWhole s then 85 else 84))

/-! ## Adopting at tide start (R249, R255 to R257) -/

/-- The state words of the records of a stream. -/
def streamWords (n : Net) (st : Octets) : List (Nat × List Word) :=
  (n.mirrored.foldl (fun (acc : Octets × List (Nat × List Word)) k =>
    let w := mirrorWords (n.inst k).op.toNat
    (acc.1.drop (3 + 3 * w),
      acc.2 ++ [(k, (List.range w).map fun j => BitVec.ofNat 18 (field acc.1 (3 + 3 * j) 3))])) (st, [])).2

/-- A die replaces the state of every listed instance with the words of its own copy. -/
def adoptDie (x : DieState) (m : List (Nat × Octets)) : DieState :=
  let n := x.net.getD Net.empty
  { x with inst := (streamWords n (mirStream m)).foldl (fun l y => listMod l y.1 fun st => mirrorDec st y.2) x.inst }

/-- The commanded set of a frame 0 comes into force: on a Follower it is the unit's own, in Resync it stands beside it (R249,
R255, log 49). -/
def adoptMoor (s : State) (z : Octets) : State :=
  let g := gsetOf (slice z 44 64)
  let m := bitOf (field z 5 1) 0
  if s.twin.role = .follower then { s with moor := { s.moor with cmdG := g, cmdM := m } }
  else { s with moor := { s.moor with adG := g, adM := m } }

/-- The checks of a Follower on COP 1 (R256). -/
def followerMay (s : State) (dig : Octets) : Bool :=
  s.man.stage = 4 && s.man.stageDig = dig && ((s.man.staged).map Net.pred).getD [] = s.man.active
    && (gList s.man.touch).all fun g => s.groupMoored g

/-- A Follower acts on COP (R256). -/
def adoptCop (s : State) (z : Octets) : State :=
  let dig := slice z 12 32
  if s.twin.role ≠ .follower then s
  else match field z 6 1 with
    | 1 =>
      if s.man.stage = 6 then s
      else if followerMay s dig then (commitBegin s dig).modTwin fun t => { t with cref := false, cconf := false }
      else s.modTwin fun t => { t with cref := true }
    | 2 =>
      if s.man.stage = 6 && s.man.stageDig = dig then
        s.modMan fun m => { m with forceAt := some (BitVec.ofNat 36 (field z 7 5)) }
      else s
    | 3 =>
      let s1 := s.modTwin fun t => { t with cref := false }
      if s1.man.stage = 6 then commitRefuse s1 else s1
    | _ => s.modTwin fun t => { t with cref := false }

/-- The enrolled flags of the segment (R249), and the enrolled set's digest in Resync (R233). -/
def adoptNodes (s : State) (z : Octets) : State :=
  let seg := field z 140 1 % 16
  let bit (k : Nat) : Bool := bitOf (field z (141 + k / 8) 1) (k % 8)
  let s1 : State := { s with
    nodes := (s.nodes.zip (List.range s.nodes.length)).map fun x =>
      if x.2 / 512 = seg then
        let on := bit (x.2 % 512)
        { x.1 with enrolled := on, reenrol := x.1.reenrol && !on, wantOffer := x.1.wantOffer && !on }
      else x.1,
    twin := { s.twin with segs := setBit s.twin.segs seg true } }
  if s1.twin.role = .resync then s1.modMan fun m => { m with enrolledDig := slice z 108 32 } else s1

/-- A period change of the Leader (R257). -/
def adoptPeriod (s : State) (z : Octets) : State :=
  let per := field z 334 1
  if per = 1 || per = 2 || per = 4 then
    { s with tide := { s.tide with perNext := some (BitVec.ofNat 3 per, BitVec.ofNat 36 (field z 335 5)) } }
  else s

/-- The mirror of the last tide is adopted by both dies at tide start. -/
def mirrorAdopt (s : State) : State :=
  if !s.twin.mirOk || !s.adopts then s
  else
    let z := mirZero s.twin.mirA
    let s1 : State := { s with a := adoptDie s.a s.twin.mirA, b := adoptDie s.b s.twin.mirB }
    let s2 := adoptPeriod (adoptNodes (adoptCop (adoptMoor s1 z) z) z) z
    s2.modTwin fun t => healthAdd t 1 1

/-! ## Time-outs -/

/-- RESYNC_LEADER_TIMEOUT (R258). -/
def execResyncLeaderTimeout (s : State) : Host.Outcome State Fault Refusal :=
  let t := s.twin
  let due := (if s.unitBit then 4096 ≤ t.noLeader else 16 ≤ t.noLeader) || 256 ≤ t.noPeer
  if s.pairs && s.armedMode && t.role = .resync && due then .next (rolePlan s .leader (Config.unlistedCause 1)) else .next s

/-- TWIN_HOLD_EXPIRY (R258). -/
def execTwinHoldExpiry (s : State) : Host.Outcome State Fault Refusal :=
  if s.twin.role = .isoSending && reached s.now (tideAdd s.twin.holdSince (s.tides (1000 * s.twin.hold.toNat))) then
    .next (rolePlan s .isoSilent 6)
  else .next s

/-- RESYNC_STALL (R263). -/
def execResyncStall (s : State) : Host.Outcome State Fault Refusal :=
  let t := s.twin
  if t.role = .resync && !t.stalled && 4096 ≤ t.resyncHb && t.resyncCnt.toNat < 64 then
    .next (fire1 (s.modTwin fun t => { t with stalled := true }) 89)
  else if t.role = .follower && t.diffRun.any fun x => 4096 ≤ x.2 then .next (fire1 s 89)
  else .next s

/-- PAIR_COMMIT_TIMEOUT (R256). -/
def execPairCommitTimeout (s : State) : Host.Outcome State Fault Refusal :=
  if s.twin.role = .leader && s.man.stage = 6 && s.twin.cop = 1 && s.man.forceAt.isNone
      && reached s.now (tideAdd s.man.commitAt 64) then .next (commitRefuse s)
  else .next s

end Sys2Proof.Machine
end

