-- ==== Sys2Proof/Machine/Emission.lean ====
section
/-!
DEFINITION. The commit fence (R57, R61 to R63, R168 to R170, R289, R411), the emission phase (R59, R221, R222, R224, R225,
R230, R231, R251 to R254) and the guard phase (R59, R60).
-/

namespace Sys2Proof.Machine

/-! ## The commit fence -/

/-- A running, armed die whose comparison has not reached its verdict. -/
def undecided (s : State) (d : Die) : Bool := s.runs d && (s.die d).armed && !(s.die d).sigDeadline

/-- A die's incomplete comparison counts as a disagreement on every group and on the digest (R57). -/
def lateDie (s : State) (d : Die) : State :=
  if undecided s d then s.modDie d fun x => { x with sigDeadline := true, verdictMoor := true, verdict := [] } else s

/-- An incomplete comparison at the fence: TIDE source 2, for the digest (which names no group, R320) and the groups. -/
def cmpLate (s : State) : State :=
  if undecided s .A || undecided s .B then
    fire (fire1 (lateDie (lateDie s .A) .B) 2) 2 (BitVec.ofNat 512 (2 ^ 512 - 1)) 0
  else s

/-- A die that holds no armed net has no comparison: its final moor set holds both dies' Degrade groups (R329). -/
def plainFinal (s : State) (d : Die) : State :=
  if (s.die d).formed then s
  else s.modDie d fun x => { x with final := s.a.degrade ||| s.b.degrade ||| x.found, formed := true }

/-- Fault moorings decided before the fence are in force from it (R63, R329, R330). Answers the state and the set each die
overlays: its own final set with every group moored in force (R168, R170). -/
def faultFence (s : State) : State :=
  { s with moor := { s.moor with
      faultG := s.moor.faultG ||| s.a.final ||| s.b.final ||| s.moor.cmpG, cmpG := 0, faultM := s.faultMoored, pendM := false } }

/-- A die commits: `g` is what was moored in force before this fence. -/
def fenceDie (s : State) (d : Die) (g : GSet) (m : Bool) : State :=
  if s.runs d && (s.die d).armed then (s.rowsSwap d).modDie d fun x => commitDie x (x.final ||| g) (m || x.finalMoor) else s

/-- What a POINT record shows of a word: quality, PP and value (R411). -/
def pointShows (w : Word) : Nat := fld w 17 15 * 4096 + fld w 11 0

/-- A POINT record for every recorded point whose committed word has changed, in index order (R411). -/
def pointRecords (old s : State) : State :=
  s.netA.decls.foldl (fun s x =>
    if x.2.recd then
      let o := committedWord old .A x.1
      let w := committedWord s .A x.1
      if pointShows o ≠ pointShows w then recPoint s x.1 w o else s
    else s) s

/-- What of a value is compared for a report on change: of HELM_HOLDER all but the countdown (R294). -/
def subKey (u : Sub) (v : Octets) : Octets := if u.entry = 0o140000 then v.take 4 else v

/-- A subscription is due at the fence (R289). -/
def subDue (s : State) (u : Sub) (v : Octets) : Bool :=
  if u.period = 0xFFFF then u.entry ≠ 0o200001 && decide (subKey u v ≠ subKey u u.lastVal)
  else tideGap s.now u.since % u.period.toNat = 0

/-- The reports taken at the commit fence. -/
def fenceReports (s : State) : State :=
  (allSubs s).foldl (fun s x =>
    let v := entryValue s x.2.entry.toNat x.2.index.toNat
    if subDue s x.2 v then reportSub s x.1 x.2 s.now v else s) s

/-- Provisional values end, with WD kept to the end of the tide (R62, R161), and EVA's counts of the tide show (R180). -/
def provDiscard (s : State) : State :=
  provNotify (s.modEva fun e => { e with
    prov := (e.prov.filter fun x => x.2.2).map fun x => (x.1, 0, true), cancel := e.cancelNow, recomp := e.recompNow, bank := if s.a.armed then !e.bank else e.bank })

/-- A unit that adopts no mirror compares no signature with a Leader's (R264, R265). -/
def diffNone (s : State) : State :=
  if s.adopts then s else s.modTwin fun t => { t with groupDiff := 0, gdiff := 0 }

/-- COMMIT_FENCE: the tide is committed. -/
def execCommitFence (s : State) : Host.Outcome State Fault Refusal :=
  if !s.tide.running || s.tide.cfence || 3 ≤ s.tide.ph.toNat then .next s
  else
    let s0 := enterPhase s 2 1650
    let s1 := budgetPeak (diffNone s0) 3 (phaseEnd s0 1650)
    let s2 := formFinal (formFinal (cmpLate s1) .A) .B
    let s3 := plainFinal (plainFinal s2 .A) .B
    let g := s3.mooredG
    let m := s3.mooredM || s3.moor.pendM
    let s4 := fenceDie (fenceDie (faultFence s3) .A g m) .B g m
    let s5 : State := { s4 with tide := { s4.tide with cfence := true, cnum := s4.now } }
    .next (capPulse (provDiscard (fenceReports (if s.a.armed && s.runs .A then pointRecords s s5 else s5))) 3)

/-! ## What may be sent -/

/-- The unit sends OUTPUT and ENROL frames (R251, R397). -/
def fieldSends (s : State) : Bool :=
  s.armedMode && s.runs .A && (match s.twin.role with
    | .solo => true
    | .leader => true
    | .follower => true
    | .isoSending => true
    | _ => false)

/-- Queue a frame on both lanes of a port (R227: copies differ in LANE alone). -/
def putPort (s : State) (p : Nat) (f : Lst) : State :=
  let a := laneUp s p .A
  let b := laneUp s p .B
  s.modPort p fun x => { x with
    queueA := if a then x.queueA ++ [{ f with lane := .A }] else x.queueA,
    queueB := if b then x.queueB ++ [{ f with lane := .B }] else x.queueB }

/-! ## Convoys (R221, R222, R253) -/

/-- The payload of a convoy from one die's committed words. -/
def convoyPayload (s : State) (d : Die) (c : Convoy) : Octets :=
  let n := (s.die d).net.getD Net.empty
  BitVec.ofNat 8 c.nodes.length :: c.nodes.flatMap fun k =>
    let ps := n.slots k 2
    be 2 k ++ [BitVec.ofNat 8 (n.blockLen ps)] ++ fieldBlock n ps (committedWord s d)

/-- The OUTPUT telegram of a convoy: Channel A's payload, each signature over its own channel's (R24, R216). -/
def convoyLst (s : State) (c : Convoy) : Lst :=
  lstSign2 s.salt { kind := 1, src := s.netA.zone, dst := convoyDst c, tide := s.now, lane := .A, unit := s.unitBit,
                    subseq := BitVec.ofNat 9 c.conv, payload := convoyPayload s .A c, sigA := 0, sigB := 0 }
    (convoyPayload s .B c)

/-- The groups whose convoys the unit leaves to its peer (R253). -/
def heldGroups (s : State) : GSet :=
  let t := s.twin
  let own : GSet :=
    if (t.role = .leader || t.role = .follower) && (t.hbOnA || t.hbOnB) && (hbRole t.peer = 1 || hbRole t.peer = 2)
        && !hbMoored t.peer then gMinus s.moor.faultG (hbFmoor t.peer)
    else 0
  let far : GSet := if t.role = .follower && t.f0Now then gMinus (mirDiff s) s.netA.localGroups else 0
  own ||| far

/-- Emit the convoys, and count those withheld. -/
def emitConvoys (s : State) : State :=
  let hold := heldGroups s
  let held (c : Convoy) : Bool := (s.netA.convoyGroups c &&& hold) ≠ 0
  let n := countIf s.netA.convoys held
  let s1 := (s.netA.convoys.filter fun c => !held c).foldl (fun s c => putPort s c.port (convoyLst s c)) s
  s1.modTwin fun t => healthAdd { t with wheldNow := BitVec.ofNat 18 n } 5 n

/-! ## SERVICE and ENROL frames (R224, R225, R228, R231, R254) -/

/-- An emission phase as it fills: frames each port lane and the Hawser may still take, and the frames sent of each key. -/
structure Emit where
  st : State
  left : List Nat
  hleft : Nat
  enr : Nat
  svc : Nat

/-- A frame of the unit in this tide. -/
def unitLst (s : State) (kind : BitVec 4) (dst : Word) (sub : Nat) (payload : Octets) : Lst :=
  lstSign (saltOf s kind) { kind := kind, src := s.netA.zone, dst := dst, tide := s.now, lane := .A, unit := s.unitBit,
                            subseq := BitVec.ofNat 9 sub, payload := payload, sigA := 0, sigB := 0 }

/-- A frame waits for the next tide (R225). -/
def holdFrame (s : State) (p : Nat) (f : Lst) : State := s.modPort p fun x => { x with held := x.held ++ [f] }

/-- The lanes of a port have a frame left in this tide (R225). -/
def Emit.room (e : Emit) (p : Nat) : Bool := 0 < e.left.getD p 0

/-- One ENROL frame on some ports; where none is left in this tide it waits for the next. -/
def putEnrol (e : Emit) (ps : List Nat) (dst : Word) (payload : Octets) : Emit :=
  let f := unitLst e.st 3 dst e.enr payload
  ps.foldl (fun (x : Emit) p =>
    if e.room p then { x with st := putPort x.st p f, left := listMod x.left p fun u => u - 1, enr := e.enr + 1 }
    else { x with st := holdFrame x.st p f }) e

/-- One SERVICE frame on a port. -/
def putService (e : Emit) (p : Nat) (dst : Word) (payload : Octets) : Emit :=
  { e with st := putPort e.st p (unitLst e.st 2 dst e.svc payload), left := listMod e.left p fun u => u - 1,
           svc := e.svc + 1 }

/-- The payload of a WITHDRAW. -/
def withdrawPayload : Octets := [4, 0, 1]

/-- The frames held over leave first, with the tide in which they are sent (R210, R225), those of a kind that may not leave in
this tide wait on. -/
def emitHeld (e : Emit) (enrol service : Bool) : Emit :=
  (List.range 4).foldl (fun e p =>
    let hs := (e.st.port p).held
    hs.foldl (fun e f =>
        if f.kind = 3 && enrol then putEnrol e [p] f.dst f.payload
        else if f.kind = 2 && service && e.room p then putService e p f.dst f.payload
        else { e with st := holdFrame e.st p f })
      { e with st := e.st.modPort p fun x => { x with held := [] } }) e

/-- WITHDRAW to every node, one frame on every port (R231). -/
def emitWithdraw (e : Emit) : Emit :=
  if zoneWithdraws e.st && e.st.twin.role ≠ .isoSending then putEnrol e (List.range 4) 0o777777 withdrawPayload else e

/-- The OFFER to one node, after a WITHDRAW of it alone where W is set. -/
def emitOffer (e : Emit) (k : Nat) (w : Bool) : Emit :=
  let n := e.st.netA
  let p := n.nodePort k
  let dst : Word := BitVec.ofNat 18 k
  let e1 := if w then putEnrol e [p] dst withdrawPayload else e
  (offerPayloads n e.st.per e.st.salt k).foldl (fun e x => putEnrol e [p] dst x) e1

/-- The offer list of frame 0. -/
def mirOffers (s : State) : List (Nat × Bool) :=
  let z := mirZero s.twin.mirA
  (List.range (min 64 (field z 205 1))).map fun j =>
    let x := field z (206 + 2 * j) 2
    (x % 8192, bitOf x 15)

/-- A node has been offered (R230). -/
def offered (s : State) (k : Nat) : State :=
  s.modNode k fun x => { x with offerAt := some s.now, wantOffer := false, waiting := true, withdraw := false }

/-- A Follower has sent its copies of an offer. -/
def offerCopied (s : State) (k : Nat) : State := s.modNode k fun x => { x with offerAt := some s.now }

/-- The OFFERs of the tide: a Solo unit's and a Leader's own, as planned, a Follower's from the Leader's list (R233, R254). -/
def emitOffers (e : Emit) (plan : List (Nat × Bool)) : Emit :=
  match e.st.twin.role with
  | .follower =>
    (mirOffers e.st).foldl (fun e x => let e1 := emitOffer e x.1 x.2; { e1 with st := offerCopied e1.st x.1 }) e
  | .isoSending => e
  | _ => plan.foldl (fun e x => let e1 := emitOffer e x.1 x.2; { e1 with st := offered e1.st x.1 }) e

/-- A SERVICE frame on the Hawser lanes that are up. -/
def hawserSend (s : State) (f : Lst) : State :=
  s.sendAll ((hawserLanes s).map fun l => .lst (.hawser l) { f with lane := l })

/-- A SERVICE payload is sent when its lanes have a frame left, and waits otherwise (R225); a Solo unit sends none to a peer
(R240, log 89). -/
def emitFrag (e : Emit) (x : OutMsg) : Emit :=
  let keep : Emit := { e with st := e.st.modSvc fun v => { v with frags := v.frags ++ [x] } }
  match x.dest with
  | .field p node =>
    if e.st.mode = .live && e.room p.val then putService e p.val node x.octets else keep
  | .peer _ =>
    if e.st.loaded && e.st.twin.role = .solo then e
    else if e.st.loaded && 0 < e.hleft then
      { e with st := hawserSend e.st (unitLst e.st 2 e.st.netA.zone e.svc x.octets), hleft := e.hleft - 1, svc := e.svc + 1 }
    else keep
  | _ => e

/-- Every waiting SERVICE payload, in order. -/
def emitService (e : Emit) : Emit :=
  let fs := e.st.svc.frags
  fs.foldl emitFrag { e with st := e.st.modSvc fun v => { v with frags := [] } }

/-- Messages become fragments under tags that count up (R224). -/
def fragment (s : State) : State :=
  s.svc.outQ.foldl (fun s x => s.modSvc fun v =>
    let ps := servicePayloads v.tag x.octets
    { v with
      frags := v.frags ++ (ps.zip (List.range ps.length)).map fun p =>
        { dest := x.dest, octets := p.1, note := if p.2 + 1 = ps.length then x.note else none },
      tag := v.tag + 1 })
    (s.modSvc fun v => { v with outQ := [] })

/-! ## NOTIFYs (R290) -/

/-- What waits for a place in session k's queue takes those that have become free, in order. -/
def placeLate (s : State) (k : Nat) : State :=
  let n := 256 - unsentNotes s k
  s.modSes k fun x => { x with notes := x.notes ++ x.late.take n, late := x.late.drop n }

/-- Send what waits of a session. -/
def drainNotes (s : State) (k : Fin 8) : State :=
  match s.ses k.val with
  | none => s
  | some x => placeLate (x.notes.foldl (fun s b => sesSend s k 4 b) (s.modSes k.val fun y => { y with notes := [] })) k.val

/-- The NOTIFYs of every session leave (log 15), unless SVC is in reset. -/
def sendNotes (s : State) : State := if s.unitDown .svc then s else sesNums.foldl drainNotes s

/-! ## Emission -/

/-- What the mirroring phase ends with: a Leader's late commands commit and its mirror has been handed over. -/
def endMirroring (s : State) : State :=
  let s1 := if s.tide.ph.toNat < 3 then queuedCommit s else s
  if s1.twin.mirQueue = [] then s1
  else (budgetPeak (s1.sendAll s1.twin.mirQueue) 4 (tickPos s1)).modTwin fun t => { t with mirQueue := [] }

/-- Everything the unit puts out in the emission phase. Each frame bears the B-die's signature (R216); a Follower sends ENROL
frames after a frame 0 alone, but for a withdrawal of the zone (R254). -/
def emitAll (s : State) : State :=
  let out := fieldSends s && s.runs .B
  let enrol := out && (s.twin.role ≠ .follower || s.twin.f0Now)
  let service := s.runs .A && s.runs .B && !s.stopsSending
  let plan := s.twin.offers.getD (offerPlan s)
  let s1 := if out && s.tide.cfence then emitConvoys s else s
  let e : Emit := { st := s1, left := List.replicate 4 (64 - moorSpent s1), hleft := 64, enr := 0, svc := 0 }
  let e1 := emitHeld e enrol (service && s.mode = .live)
  let e2 := if out then emitWithdraw e1 else e1
  let e3 := if enrol then emitOffers e2 plan else e2
  if service && !s.unitDown .svc then (emitService e3).st else e3.st

/-- EMISSION_START. -/
def execEmissionStart (s : State) : Host.Outcome State Fault Refusal :=
  if !s.tide.running || 4 ≤ s.tide.ph.toNat then .next s
  else .next (emitAll (fragment (sendNotes (capPulse (lioEmission (enterPhase (endMirroring s) 4 1750)) 4))))

/-! ## Guard -/

/-- Whether a frame of a lane's queue has left. -/
def hasLeft (q : List Lst) (u : Nat) (f : Lst) : Bool :=
  (q.take (q.length - u)).any fun g => g.kind = f.kind && g.subseq = f.subseq && g.dst = f.dst

/-- A port at the start of the guard phase: what has started leaves, OUTPUT frames that have not are dropped with TIDE
source 4, SERVICE and ENROL frames that have left on no lane are held over (R59, R225). -/
def guardPort (unsent : List Nat) (s : State) (p : Fin 4) : State :=
  let x := s.port p.val
  let ua := unsent.getD (2 * p.val) 0
  let ub := unsent.getD (2 * p.val + 1) 0
  let s1 := laneLeaves (laneLeaves s p .A x.queueA (x.queueA.length - ua)) p .B x.queueB (x.queueB.length - ub)
  let ra := x.queueA.drop (x.queueA.length - ua)
  let rb := x.queueB.drop (x.queueB.length - ub)
  let away (f : Lst) : Bool := hasLeft x.queueA ua f || hasLeft x.queueB ub f
  let rb2 := rb.filter fun f => !(ra.any fun g => g.kind = f.kind && g.subseq = f.subseq && g.dst = f.dst)
  let keep := (ra ++ rb2).filter fun f => f.kind ≠ 1 && !away f
  let s2 := s1.modPort p.val fun x => { x with queueA := [], queueB := [], held := x.held ++ keep }
  let lost := (ra ++ rb).filter fun f => f.kind = 1
  lost.foldl (fun s f => fire s 4 0 (f.dst.setWidth 32)) s2

/-- GUARD_START: the k-th number of `unsent` is how many frames at the end of lane k's queue have not started (lane A of
port 0, lane B of port 0, and so on). -/
def execGuardStart (unsent : List Nat) (s : State) : Host.Outcome State Fault Refusal :=
  if !s.tide.running || 5 ≤ s.tide.ph.toNat then .next s
  else
    let s1 := budgetPeak s 5 (if s.tide.ph = 4 then tickPos s else 0)
    let s2 := (List.finRange 4).foldl (guardPort unsent) s1
    .next (enterPhase s2 5 1950)

end Sys2Proof.Machine
end

