-- ==== Sys2Proof/Machine/FuseCommands.lean ====
section
/-!
DEFINITION. The commands of FUS as they come from the FUSE_PROGRAM entry or the FUS registers, their ends, and the clearing
of overrides (R374 to R380).
-/

namespace Sys2Proof.Machine

/-- A fuse command OP by its way in. -/
def fuseRow (via : FuseVia) (op : Nat) (s : State) : State :=
  match via with
  | .entry k r => writeEntry s k r 0o076020 (firstIs op)
  | .regs => if s.runs .A then pcmdWrite s op else s

/-- FUSE_PROGRAM: OP 1. -/
def execFuseProgram (via : FuseVia) (s : State) : Host.Outcome State Fault Refusal := .next (fuseRow via 1 s)

/-- FUSE_SEAL: OP 2. -/
def execFuseSeal (via : FuseVia) (s : State) : Host.Outcome State Fault Refusal := .next (fuseRow via 2 s)

/-- FUSE_WLOCK: OP 3. -/
def execFuseWlock (via : FuseVia) (s : State) : Host.Outcome State Fault Refusal := .next (fuseRow via 3 s)

/-- FUSE_RLOCK: OP 4. -/
def execFuseRlock (via : FuseVia) (s : State) : Host.Outcome State Fault Refusal := .next (fuseRow via 4 s)

/-- FUSE_MAP: OP 5. -/
def execFuseMap (via : FuseVia) (s : State) : Host.Outcome State Fault Refusal := .next (fuseRow via 5 s)

/-- FUSE_REBURN: OP 6. -/
def execFuseReburn (via : FuseVia) (s : State) : Host.Outcome State Fault Refusal := .next (fuseRow via 6 s)

/-- FUSE_READ: OP 7. -/
def execFuseRead (via : FuseVia) (s : State) : Host.Outcome State Fault Refusal := .next (fuseRow via 7 s)

/-- The FUSE_PROGRAM request whose burn has ended completes with a status. -/
def burnAnswer (s : State) (k : Fin 8) (r : Fin 16) (c : Nat) : State :=
  let s1 := fuseResult s
  match s1.slot k.val r.val with
  | some sl => match sl.st with
    | .burning tx => complete s1 k r.val c tx s1.now []
    | _ => s1
  | none => s1

/-- FUSE_COMMAND_DONE: `pulses` the most applied to one bit, `ok` that every bit then read 1 at both references; `lo` and
`hi` what the word reads after a verify failure (R377). The request completes with 0x00 when every bit verified and with 0x08
otherwise (R380); a burn that a reset of its die cut off ends in verify failure, its request with 0x0A (R398). -/
def execFuseCommandDone (pulses : BitVec 6) (ok : Bool) (lo hi : Word) (s : State) : Host.Outcome State Fault Refusal :=
  match s.fus.burn with
  | none => .next s
  | some x =>
    let s1 := if x.cut then fusEnds s 3 pulses 0 else burnEnd s x pulses ok lo hi
    match x.via with
    | .regs => .next s1
    | .entry k r =>
      let c := if x.cut then 10 else if ok then 0 else 8
      let s2 := match x.asked with
        | some y => recDict s1 k.val y.1 y.2.1 y.2.2 c
        | none => s1
      .next (burnAnswer s2 k r c)

/-- FUSE_OVERRIDE_CLEAR: the entry clears both dies' overrides, FUS.OVCLR those of the A-die (R379, R380). -/
def execFuseOverrideClear (via : FuseVia) (s : State) : Host.Outcome State Fault Refusal :=
  match via with
  | .entry k r => .next (writeEntry s k r 0o076011 anyValue)
  | .regs => .next (if s.runs .A then s.modFuse .A FuseDie.clearOvr else s)

end Sys2Proof.Machine
end

