-- ==== Sys2Proof/Machine/Tides.lean ====
section
/-!
DEFINITION. TIDE_START: what every tide boundary brings (R46, R64). The parts come in the order in which they stand here.
-/

namespace Sys2Proof.Machine

/-! ## What the last tide leaves -/

/-- GWY has raised nothing of Degrade or Moor severity in the tide in progress (R264). -/
def gwyQuiet (s : State) : Bool :=
  let e := s.evOf 1
  (List.range (Config.countOf 1)).all fun j => e.sev j < 2 || e.last.getD j none ≠ some s.now

/-- A Resync unit counts tides in which it hears nothing, and raises HWS 83 where only nodes are heard (R258); a tide without
a Leader heartbeat ends its count (R262). -/
def resyncTide (s : State) : State :=
  let t := s.twin
  let hb := t.hbA || t.hbB
  if t.role ≠ .resync || !s.pairs then s
  else
    let s1 := s.modTwin fun t => { t with
      noPeer := if hb || t.inputSeen then 0 else t.noPeer + 1, noLeader := if hb then t.noLeader else 0,
      resyncCnt := if t.leaderNow then t.resyncCnt else 0 }
    fireIf s1 (t.inputSeen && !hb) 83

/-- What the tide that ends adds to the counts of the pair. -/
def endTide (s : State) : State :=
  let s1 := if 3 ≤ s.tide.ph.toNat then s else queuedCommit s
  let s2 := if gwyQuiet s1 then s1.modTwin fun t => healthAdd t 0 1 else s1
  resyncTide s2

/-! ## The number and the registers of the tide -/

/-- The number goes on by one, and STATUS, PHASE and the tick return to 0 (R46, R75). -/
def tideNext (s : State) : State :=
  { s with tide := { s.tide with
      num := s.tide.num + 1, ph := 0, tick := 0, aDone := false, bDone := false, closed := false, cfence := false } }

/-- Every enrolment is withdrawn at a boundary (R231): WITHDRAW up to two tides on, then an offer to every node, under
the active Manifest (R114). -/
def withdrawAll (s : State) (nnode : Nat) : State :=
  { s with
    nodes := (List.range nnode).map fun k =>
      { s.nodes.getD k {} with
        enrolled := false, enrolAt := none, offerAt := none, wantOffer := true, unanswered := 0, slow := false,
        waiting := false, withdraw := false },
    man := { s.man with enrolledDig := s.man.active },
    enrol := { s.enrol with withdrawTo := some (tideAdd s.now 2), offersFrom := some (tideAdd s.now 3) } }

/-- A period change whose boundary has come (R45, R257, R393): a Follower is moored from it, as at start-up, until it
is unmoored in the normal way (R395, log 89). -/
def periodNext (s : State) : State :=
  match s.tide.perNext with
  | some (p, t) =>
    if later t s.now then s
    else
      let s1 : State := { s with tide := { s.tide with per := p, perNext := none } }
      let s2 := if s1.armedMode then withdrawAll s1 s1.nodes.length else s1
      if s2.twin.role = .follower then { s2 with moor := { s2.moor with startup := true } } else s2
  | none => s

/-- Registers that take effect at a boundary: severities (R318), RAEN (R160), fuse overrides (R374), class-N writes made
after intake close (R37). -/
def regsNext (s : State) : State :=
  let sev (e : EvBlock) : EvBlock :=
    { e with sevL := e.nextL.getD e.sevL, sevH := e.nextH.getD e.sevH, nextL := none, nextH := none }
  let s1 : State := { s with
    ev := s.ev.map sev,
    eva := { s.eva with
      raenNow := s.eva.raen, ra := false, nwThis := s.eva.nwThis ++ s.eva.nwLater, nwLater := [],
      cancelNow := 0, recompNow := 0, prov := [] },
    fus := { s.fus with a := s.fus.a.boundary, b := s.fus.b.boundary } }
  ageTide s1

/-- The port registers that show the last tide (R237). -/
def portNext (p : Port) : Port :=
  { p with rxA := p.rxNowA, rxB := p.rxNowB, rxNowA := false, rxNowB := false, txc := p.txNow, txNow := 0 }

/-- The counts and flags of the pair that belong to one tide (R247, R248, R256, R265). -/
def twinNext (s : State) : State :=
  let t := s.twin
  let left := t.copLeft - 1
  let t1 : TwinSt := { t with
    hbPrevA := t.hbA, hbPrevB := t.hbB, hbA := false, hbB := false, hbOnA := false, hbOnB := false, leaderNow := false,
    groupDiff := if t.mirChecked then t.groupDiff else 0, gdiff := if t.mirChecked then t.gdiff else 0, inputSeen := false, mirA := [], mirB := [],
    mirChecked := false, mirQueue := [], offers := none, f0Now := false, wheld := t.wheldNow, wheldNow := 0,
    adopt := t.mirOk, mirOk := false, copLeft := left, cop := if 2 ≤ t.cop && left = 0 then 0 else t.cop }
  let t2 := if t1.pper ≠ 0 && reached s.now t1.ptide then { t1 with pper := 0 } else t1
  { s with twin := t2, ports := s.ports.map portNext }

/-! ## A Manifest commit in force (R111, R114, R177) -/

/-- The commit's boundary has come. -/
def commitDue (s : State) : Bool := s.man.stage = 6 && s.man.forceAt.any fun t => reached s.now t

/-- Module state after a commit that reloads the tables whole: Translate and prove with no net in service, then Enrol or Moored
(R175, R177). -/
def reloadNext (s : State) (big toLive : Bool) : State :=
  if big then { s with
    mode := .translate, lio := (feedsIn s .translate).lio, start := { s.start with modeNext := none, toLive := toLive, tp := none },
    a := s.a.outOfService, b := s.b.outOfService } else s

/-- The new Manifest is active on both dies; Channel A runs the batches that its proof covered, and the tables of both are
written (R113, R177, R178). -/
def commitForce (s : State) : State :=
  if !commitDue s then s
  else
    let m := s.man
    let s0 := swapBegin s
    let slot := inactiveSlot s
    let nA := m.staged.getD Net.empty
    let nB := m.stagedB.getD Net.empty
    let tables := layoutStore ((s0.tablesWrite .A).tablesWrite .B) nA
    let s1 : State := { tables with
      a := rearmDie s0.a nA m.touch, b := if s0.runs .B then rearmDie s0.b nB m.touch else s0.b,
      man := { s0.man with
        slot := BitVec.ofNat 9 slot, seq := m.commitSeq, active := m.stageDig, reason := 0, checkA := 0, checkB := 0,
        stage := 0, stageReason := 0, stageDig := List.replicate 32 0, touch := 0, staged := none, stagedB := none, proof := none,
        batches := [], confirmed := false,
        forceAt := none, swapDone := false },
      moor := { s0.moor with cmdG := if m.fromLoad then s0.moor.cmdG else s0.moor.cmdG ||| m.touch },
      eva := { s0.eva with
        nwVal := s0.eva.nwVal.filter fun x => !gHas m.touch (groupOf x.1), batches := m.batches },
      twin := { s0.twin with cconf := false, cref := false } }
    let s2 := recManifest s1 3 0 m.commitSeq.toNat slot m.stageDig
    let s3 := if m.netchg && !m.fromLoad then withdrawAll s2 nA.nnode else s2
    let s4 : State := if m.fromLoad then { s3 with
      tide := { s3.tide with per := BitVec.ofNat 3 nA.period, perNext := none }, enrol := {},
      nodes := List.replicate nA.nnode {} } else s3
    reloadNext s4 m.big (!m.netchg && !m.fromLoad)

/-! ## Moor sets (R64, R304, R305, R336, R337) -/

/-- What UNMOOR_REQUESTs end at this boundary: neither a later MOOR_COMMAND nor a fault of the tide prevails over it. -/
def unmoorsG (m : MoorSt) : GSet := gMinus m.remG (m.addG ||| m.newG)

/-- The module is unmoored at this boundary. -/
def unmoorsM (m : MoorSt) : Bool := m.remM && !m.addM && !m.newM

/-- Commands of the last tide come into force. What an UNMOOR_REQUEST names leaves the commanded set, and of the fault
moorings what was in force when it executed, unless a mooring of the tide prevails (R305, R337); the module stays moored
when Bench is or comes into force (R306). An unmooring of the module lets both dies' Bells run (R331). A Degrade fired after
the exchange of the tide that ends counts as decided in the new one (R329). -/
def moorNext (s : State) : State :=
  let m := s.moor
  let bench := s.start.benchNext.getD s.start.bench
  let keep := m.addG ||| m.newG
  let u := unmoorsM m && !bench
  let uf := m.remFM && !m.addM && !m.newM && !bench
  let m1 : MoorSt := { m with
    cmdG := gMinus m.cmdG (unmoorsG m) ||| m.addG, cmdM := (m.cmdM && !u) || m.addM,
    adG := gMinus m.adG (unmoorsG m), adM := m.adM && !u,
    faultG := gMinus m.faultG (gMinus m.remFG keep), faultM := m.faultM && !uf, startup := m.startup && !uf,
    addG := 0, addM := false, remG := 0, remM := false, remFG := 0, remFM := false,
    newG := s.a.degradeNext ||| s.b.degradeNext, newM := false, exchanged := false }
  let gone := s.mooredM && !(m1.comM || m1.faultM || m1.startup) && !m1.pendM
  let free (x : DieState) : DieState := if gone then { x with mooring := false } else x
  { s with moor := m1, a := free s.a, b := free s.b }

/-! ## The dictionary (R270 to R275, R287) -/

/-- Protection octets written in the last tide are in force; a subscription whose read right is lost ends (R273). -/
def protInForce (s : State) : State :=
  let s1 := s.modDict fun d => { d with
    prot := d.protNext.foldl (fun p x =>
      (List.range 32).foldl (fun p k => cellSet (floorOf (32 * x.1 + k)) p (32 * x.1 + k) (x.2.getD k 0)) p) d.prot,
    protNext := [] }
  if s.dict.protNext = [] then s1
  else (allSubs s1).foldl (fun s x =>
    if mayRead s (s.sesLevel x.1) x.2.entry.toNat then s
    else dropSub (queueNote s x.1 (notifyBody x.2.num.toNat 3 x.2.entry.toNat x.2.index.toNat s.now [])) x.1
      x.2.num.toNat) s1

/-- Level keys written in the last tide are in force, and the sessions of their levels close (R275). -/
def keysInForce (s : State) : State :=
  s.dict.keysNext.foldl (fun s x =>
    endSessions (s.modDict fun d => { d with keys := listMod d.keys x.1 fun _ => some x.2 })
      fun y => y.level.toNat = x.1) (s.modDict fun d => { d with keysNext := [] })

/-- A fenced WRITE completes at its boundary; one of MANIFEST_COMMIT when the stage has left Committing, with 0x08 where the
commit was refused (R110, R287). -/
def fencedSlot (s : State) (k : Fin 8) (r : Nat) : State :=
  match s.slot k.val r with
  | none => s
  | some sl => match sl.st with
    | .inForceAt tx ift =>
      if sl.req.entry = 0o100011 then
        if s.man.stage = 6 then s
        else complete s k r (if s.man.active = sl.req.data then 0 else 8) tx s.now []
      else if reached s.now ift then complete s k r 0 tx ift []
      else s
    | _ => s

/-- A commit write whose stage has left Committing holds no fence any more, whatever tide its records forecast (R65). -/
def commitSettled (s : State) : State :=
  match s.dict.commitBy with
  | none => s
  | some (k, c) =>
    if s.man.stage = 6 then s
    else (s.modSes k.val fun x => { x with writes := x.writes.filter fun w => w.1 ≠ c }).modDict fun d =>
      { d with commitBy := none }

/-- Every fenced WRITE whose boundary has come. -/
def fencedWrites (s : State) : State :=
  commitSettled (sesNums.foldl (fun s k => (List.range 16).foldl (fun s r => fencedSlot s k r) s) s)

/-- Everything of the dictionary that a boundary brings, the responses first. -/
def dictNext (s : State) : State := keysInForce (protInForce (fencedWrites s))

/-! ## Start-up states (R179, R230, R258, R306, R392) -/

/-- The module leaves Manifest load: without TWIN it is Solo at once (R240, R258). -/
def leaveLoad (s : State) : State :=
  if s.loaded && !s.netA.twin && s.twin.role = .resync then roleSet s .solo 11 else s

/-- Both dies arm their nets where no net was armed (R179), and write their tables anew. -/
def armBoth (s : State) : State :=
  let arm (x : DieState) : DieState := if x.armed then x else armDie x
  let t := if s.a.armed then s else s.tablesWrite .A
  { (if s.b.armed then t else t.tablesWrite .B) with a := arm s.a, b := arm s.b }

/-- Enrol begins: every node is to be offered (R230), under the active Manifest (0o100001). -/
def enrolBegins (s : State) : State :=
  { s with
    enrol := { s.enrol with since := s.now }, man := { s.man with enrolledDig := s.man.active },
    nodes := s.nodes.map fun x => { x with wantOffer := !x.enrolled && x.enrolAt.isNone } }

/-- A failed proof leaves no net (R175). -/
def unload (s : State) : State :=
  { s with
    a := { s.a with net := none, armed := false, kept := false }, b := { s.b with net := none, armed := false, kept := false },
    eva := { s.eva with batches := [], coneNodes := [] }, nodes := [] }

/-- The next state of start-up begins at this boundary. -/
def modeBegins (s : State) : State :=
  match s.start.modeNext with
  | none => s
  | some m =>
    let s1 : State := { feedsIn s m with mode := m, start := { s.start with modeNext := none } }
    match m with
    | .enrol => enrolBegins (armBoth s1)
    | .live => armBoth s1
    | .load => if s.mode = .translate then unload s1 else s1
    | _ => s1

/-- Bench begins or ends; with its end a halt of the core ends, which only Bench allows (R306, R349). -/
def benchTakes (s : State) : State :=
  let b := s.start.benchNext.getD s.start.bench
  let s1 : State := { s with start := { s.start with bench := b, benchNext := none } }
  if s1.tim.halt && !b then debugResume s1 else s1

/-- Bench and the mode of the module. -/
def stateNext (s : State) : State :=
  let s1 := modeBegins s
  benchTakes (if s1.mode = .translate then leaveLoad s1 else s1)

/-! ## Nodes and roles -/

/-- Nodes count as enrolled from their tide on (R229). -/
def nodesNext (s : State) : State :=
  { s with nodes := s.nodes.map fun x =>
      if x.enrolAt.any fun t => reached s.now t then { x with enrolled := true, enrolAt := none, reenrol := false } else x }

/-- A planned change of role takes effect (R258). -/
def roleTakes (s : State) : State :=
  match s.twin.roleNext with
  | some x => roleSet s x.1 x.2
  | none => s

/-! ## A die's tide (R153, R166) -/

/-- A die's comparison starts afresh, and its Degrade groups of after the exchange count for this tide (R329). -/
def dieNext (x : DieState) : DieState :=
  let y := if x.armed then copyBank x else x
  { y with
    sigs := [], dig := [], otherSigs := [], otherDig := none, sigDeadline := false, verdictMoor := false, many := false, verdict := [],
    otherVerdict := none, otherDegrade := none, degrade := x.degradeNext, degradeNext := 0, found := 0, formed := false }

/-! ## Intake (R52) -/

/-- The intake of the new tide: copies held in the guard phase enter it. -/
def intakeNext (s : State) : State :=
  let i := s.intake
  let live (k : Nat) : Bool := (i.held.any fun c => c.copy = k) || i.bCopies.any fun c => c.copy = k
  let s1 : State := { s with
    intake := { i with
      aCopies := i.aCopies.filter fun c => live c.copy, bClosed := false, prevB := i.closeB, closeB := [], noticesA := [],
      closeA := [], held := [], rate := [], basis := [] } }
  i.held.foldl (fun s c => landNow (takeBasis s c.entry) c) s1

/-! ## Heartbeats and Bells -/

/-- Each running die sends its Gangway heartbeat (R25, R168). -/
def gwHeartbeats (s : State) : State :=
  let one (s : State) (d : Die) : State :=
    if s.runs d then gwSend s d (.heartbeat s.now (s.die d).finalCrc) else s
  one (one s .A) .B

/-- The level of a Bell in a tide (R331). -/
def bellLevel (d : Die) (t : Tide) : Bool :=
  match d with
  | .A => !t.getLsbD 0
  | .B => t.getLsbD 0

/-- A die's Bell takes the level of the tide while neither the die nor the module is moored. -/
def bellDie (s : State) (d : Die) : State :=
  let x := s.die d
  let v := bellLevel d s.now
  let runs := s.runs d && !x.mooring && !s.mooredM
  let edge := runs && x.bell ≠ v
  let s1 := s.modDie d fun x => if runs then { x with bell := v, bellRun := true } else { x with bellRun := false }
  let n (k : Nat) : Nat := if edge then min (k + 1) 2 else if runs then k else 0
  { s1 with bells := match d with
    | .A => { s1.bells with edgesA := n s1.bells.edgesA, edgeA := edge }
    | .B => { s1.bells with edgesB := n s1.bells.edgesB, edgeB := edge } }

/-- Both Bells; the driver energises the relays after two edges of each (R332). -/
def bellsNext (s : State) : State :=
  let s1 := bellDie (bellDie s .A) .B
  if 2 ≤ s1.bells.edgesA && 2 ≤ s1.bells.edgesB then { s1 with bells := { s1.bells with relay := true, bcon := true } }
  else s1

/-- A MOOR frame whose decision fell in the guard phase is sent now (R223). -/
def moorDue (s : State) : State :=
  if s.moor.moorFrameDue then moorFrames { s with moor := { s.moor with moorFrameDue := false } } else s

/-! ## The boundary -/

/-- What comes into force at the boundary (R64). -/
def inForce (s : State) : State :=
  let s1 := mirrorAdopt s
  let s2 := moorNext (commitForce (periodNext (regsNext s1)))
  let s3 := roleTakes (nodesNext (conesDue (translateTide (stateNext s2))))
  dictNext s3

/-- The module has come to state Running, or past it to Degraded, since its start: re-sensing goes on from now (R370). -/
def runningNoted (s : State) : State :=
  if moduleState s = 0o007 || moduleState s = 0o010 then { s with fus := { s.fus with ran := true } } else s

/-- The new tide begins on both dies: of the last one's Gangway frames only verdicts on copies still arrive. -/
def tideOpens (s : State) : State :=
  let s1 := heartbeatSend (gwHeartbeats (twinNext { s with ab := s.ab.filter GwFrame.isVerdictA, ba := [] }))
  moorDue (bellsNext (copyRows { s1 with a := dieNext s1.a, b := dieNext s1.b }))

/-- A tide boundary. -/
def boundary (s : State) : State :=
  intakeNext (provNotify (capPulse (runningNoted (tideOpens (inForce (tideNext (endTide s))))) 1))

/-- The response of a fenced SOFT_RESTART leaves before its session ends (R287, R306). -/
def restartResponse (s : State) : State :=
  sesNums.foldl (fun s k => (List.range 16).foldl (fun s r =>
    match s.slot k.val r with
    | none => s
    | some sl => match sl.st with
      | .inForceAt tx ift => if sl.req.entry = 0o010003 then complete s k r 0 tx ift [] else s
      | _ => s) s) s

/-- TIDE_START: a SOFT_RESTART committed in the last tide starts the module again instead (R306). -/
def execTideStart (s : State) : Host.Outcome State Fault Refusal :=
  if !s.tide.running then .next s
  else if s.start.restart then .next (softRestart (restartResponse s))
  else .next (boundary s)

end Sys2Proof.Machine
end

