-- ==== Sys2Proof/Machine/Dispatch.lean ====
section
/-!
DEFINITION. The dispatch of commands to their meanings: one arm per constructor of Instr, one direct call each.
-/

namespace Sys2Proof.Machine

/-- What command i does to everything but the queue. -/
def exec (i : Instr) (s : State) : Host.Outcome State Fault Refusal :=
  match i with
  | .tideStart => Sys2Proof.Machine.execTideStart s
  | .heartbeatArrivalB => Sys2Proof.Machine.execHeartbeatArrivalB s
  | .gangwayHeartbeatReceived d devPpm => Sys2Proof.Machine.execGangwayHeartbeatReceived d devPpm s
  | .gangwayHeartbeatTimeout d => Sys2Proof.Machine.execGangwayHeartbeatTimeout d s
  | .gangwayFrameCrcFail d => Sys2Proof.Machine.execGangwayFrameCrcFail d s
  | .inputCopyReceive p l fa fb => Sys2Proof.Machine.execInputCopyReceive p l fa fb s
  | .aVerdictReceived => Sys2Proof.Machine.execAVerdictReceived s
  | .landingNoticeReceived => Sys2Proof.Machine.execLandingNoticeReceived s
  | .intakeClose pins => Sys2Proof.Machine.execIntakeClose pins s
  | .closeListReceived => Sys2Proof.Machine.execCloseListReceived s
  | .channelAEvalComplete => Sys2Proof.Machine.execChannelAEvalComplete s
  | .channelBEvalComplete => Sys2Proof.Machine.execChannelBEvalComplete s
  | .comparisonStart => Sys2Proof.Machine.execComparisonStart s
  | .signatureFrameReceived d => Sys2Proof.Machine.execSignatureFrameReceived d s
  | .signatureDeadline => Sys2Proof.Machine.execSignatureDeadline s
  | .verdictExchange => Sys2Proof.Machine.execVerdictExchange s
  | .verdictFrameReceived d => Sys2Proof.Machine.execVerdictFrameReceived d s
  | .verdictDeadline d => Sys2Proof.Machine.execVerdictDeadline d s
  | .commitFence => Sys2Proof.Machine.execCommitFence s
  | .mirroringStart => Sys2Proof.Machine.execMirroringStart s
  | .mirrorLate => Sys2Proof.Machine.execMirrorLate s
  | .emissionStart => Sys2Proof.Machine.execEmissionStart s
  | .mirrorCompletenessCheck => Sys2Proof.Machine.execMirrorCompletenessCheck s
  | .guardStart unsent => Sys2Proof.Machine.execGuardStart unsent s
  | .bStatusMirror => Sys2Proof.Machine.execBStatusMirror s
  | .scrub d flips => Sys2Proof.Machine.execScrub d flips s
  | .uncorrectableWord site => Sys2Proof.Machine.execUncorrectableWord site s
  | .eventSourceFires src gs subj => Sys2Proof.Machine.execEventSourceFires src gs subj s
  | .moorSignalReceived d => Sys2Proof.Machine.execMoorSignalReceived d s
  | .registerParityFault b => Sys2Proof.Machine.execRegisterParityFault b s
  | .settleEnd u => Sys2Proof.Machine.execSettleEnd u s
  | .blockResetEnd u ok => Sys2Proof.Machine.execBlockResetEnd u ok s
  | .evbSelfClear found => Sys2Proof.Machine.execEvbSelfClear found s
  | .eventClear b bits found => Sys2Proof.Machine.execEventClear b bits found s
  | .severityWrite b hi v => Sys2Proof.Machine.execSeverityWrite b hi v s
  | .eventFirstRead b => Sys2Proof.Machine.execEventFirstRead b s
  | .tideNumRead committed => Sys2Proof.Machine.execTideNumRead committed s
  | .timSourceClear k => Sys2Proof.Machine.execTimSourceClear k s
  | .islandRailFault d => Sys2Proof.Machine.execIslandRailFault d s
  | .laneDown p l present => Sys2Proof.Machine.execLaneDown p l present s
  | .hawserLinkDown l present => Sys2Proof.Machine.execHawserLinkDown l present s
  | .mgpLinkLoss => Sys2Proof.Machine.execMgpLinkLoss s
  | .ptpSyncSend => Sys2Proof.Machine.execPtpSyncSend s
  | .ptpAnnounceSend => Sys2Proof.Machine.execPtpAnnounceSend s
  | .ptpDelayReqReceived p l ident sequence => Sys2Proof.Machine.execPtpDelayReqReceived p l ident sequence s
  | .hawserSyncReceived off => Sys2Proof.Machine.execHawserSyncReceived off s
  | .serviceFrameReceived f => Sys2Proof.Machine.execServiceFrameReceived f s
  | .serviceReassemblyTimeout => Sys2Proof.Machine.execServiceReassemblyTimeout s
  | .enrolRequest => Sys2Proof.Machine.execEnrolRequest s
  | .enrolAccept => Sys2Proof.Machine.execEnrolAccept s
  | .enrolRefuse => Sys2Proof.Machine.execEnrolRefuse s
  | .offerTimeout n => Sys2Proof.Machine.execOfferTimeout n s
  | .slowOffer n => Sys2Proof.Machine.execSlowOffer n s
  | .enrolEnd => Sys2Proof.Machine.execEnrolEnd s
  | .hawserHeartbeatReceived l fa fb => Sys2Proof.Machine.execHawserHeartbeatReceived l fa fb s
  | .heartbeatDeadline => Sys2Proof.Machine.execHeartbeatDeadline s
  | .mirrorFrameReceived l fa fb => Sys2Proof.Machine.execMirrorFrameReceived l fa fb s
  | .resyncLeaderTimeout => Sys2Proof.Machine.execResyncLeaderTimeout s
  | .twinHoldExpiry => Sys2Proof.Machine.execTwinHoldExpiry s
  | .resyncStall => Sys2Proof.Machine.execResyncStall s
  | .pairCommitTimeout => Sys2Proof.Machine.execPairCommitTimeout s
  | .udpDatagramReceived ip port frag copies => Sys2Proof.Machine.execUdpDatagramReceived ip port frag copies s
  | .sessOpen => Sys2Proof.Machine.execSessOpen s
  | .sessClose => Sys2Proof.Machine.execSessClose s
  | .request => Sys2Proof.Machine.execRequest s
  | .read k r => Sys2Proof.Machine.execRead k r s
  | .write k r => Sys2Proof.Machine.execWrite k r s
  | .fence k r => Sys2Proof.Machine.execFence k r s
  | .helmRequest k r => Sys2Proof.Machine.execHelmRequest k r s
  | .helmRelease k r => Sys2Proof.Machine.execHelmRelease k r s
  | .helmHandover k r => Sys2Proof.Machine.execHelmHandover k r s
  | .subscribe k r => Sys2Proof.Machine.execSubscribe k r s
  | .helmLeaseExpiry => Sys2Proof.Machine.execHelmLeaseExpiry s
  | .seizureNoticeEnd => Sys2Proof.Machine.execSeizureNoticeEnd s
  | .sessionTimeout k => Sys2Proof.Machine.execSessionTimeout k s
  | .protectionWrite k r => Sys2Proof.Machine.execProtectionWrite k r s
  | .levelKeyWrite k r => Sys2Proof.Machine.execLevelKeyWrite k r s
  | .sessionClose k r => Sys2Proof.Machine.execSessionClose k r s
  | .settingsStoreWrite => Sys2Proof.Machine.execSettingsStoreWrite s
  | .moorCommandGroups k r => Sys2Proof.Machine.execMoorCommandGroups k r s
  | .moorCommandModule k r => Sys2Proof.Machine.execMoorCommandModule k r s
  | .unmoorRequestGroups k r => Sys2Proof.Machine.execUnmoorRequestGroups k r s
  | .unmoorRequestModule k r => Sys2Proof.Machine.execUnmoorRequestModule k r s
  | .softRestart k r => Sys2Proof.Machine.execSoftRestart k r s
  | .benchEnter k r => Sys2Proof.Machine.execBenchEnter k r s
  | .benchLeave k r => Sys2Proof.Machine.execBenchLeave k r s
  | .partitionResume k r => Sys2Proof.Machine.execPartitionResume k r s
  | .partitionSuspend k r => Sys2Proof.Machine.execPartitionSuspend k r s
  | .tidePeriodWrite k r => Sys2Proof.Machine.execTidePeriodWrite k r s
  | .tideBudgetReportClear k r => Sys2Proof.Machine.execTideBudgetReportClear k r s
  | .nodeReenrol k r => Sys2Proof.Machine.execNodeReenrol k r s
  | .eventClearEntry k r found => Sys2Proof.Machine.execEventClearEntry k r found s
  | .eventSeverityEntry k r => Sys2Proof.Machine.execEventSeverityEntry k r s
  | .powerRetry k r => Sys2Proof.Machine.execPowerRetry k r s
  | .standbyTestNow k r => Sys2Proof.Machine.execStandbyTestNow k r s
  | .manifestStageOpen k r => Sys2Proof.Machine.execManifestStageOpen k r s
  | .manifestStageClose k r => Sys2Proof.Machine.execManifestStageClose k r s
  | .manifestStageDiscard k r => Sys2Proof.Machine.execManifestStageDiscard k r s
  | .norEraseDone ok => Sys2Proof.Machine.execNorEraseDone ok s
  | .manifestData k r stuckA stuckB readBack => Sys2Proof.Machine.execManifestData k r stuckA stuckB readBack s
  | .stageVerifyDone => Sys2Proof.Machine.execStageVerifyDone s
  | .stageProofStep run => Sys2Proof.Machine.execStageProofStep run s
  | .manifestCommit k r => Sys2Proof.Machine.execManifestCommit k r s
  | .commitConfirmed => Sys2Proof.Machine.execCommitConfirmed s
  | .commitTimeout failed => Sys2Proof.Machine.execCommitTimeout failed s
  | .commitSwap => Sys2Proof.Machine.execCommitSwap s
  | .coneTableRebuilt => Sys2Proof.Machine.execConeTableRebuilt s
  | .backgroundManifestCheck d => Sys2Proof.Machine.execBackgroundManifestCheck d s
  | .svcPostLocal => Sys2Proof.Machine.execSvcPostLocal s
  | .svcPostPeer => Sys2Proof.Machine.execSvcPostPeer s
  | .svcMessageReceived peer => Sys2Proof.Machine.execSvcMessageReceived peer s
  | .partitionAccessFault k addr => Sys2Proof.Machine.execPartitionAccessFault k addr s
  | .fenceMem ring => Sys2Proof.Machine.execFenceMem ring s
  | .fencePort => Sys2Proof.Machine.execFencePort s
  | .fenceDict reg => Sys2Proof.Machine.execFenceDict reg s
  | .fenceDictSettled => Sys2Proof.Machine.execFenceDictSettled s
  | .partitionInterrupt => Sys2Proof.Machine.execPartitionInterrupt s
  | .classNWrite ring v => Sys2Proof.Machine.execClassNWrite ring v s
  | .runAheadEnableWrite v => Sys2Proof.Machine.execRunAheadEnableWrite v s
  | .tidePeriodRegisterWrite v => Sys2Proof.Machine.execTidePeriodRegisterWrite v s
  | .registerWrite ring addr v => Sys2Proof.Machine.execRegisterWrite ring addr v s
  | .pulseCheck ra rb => Sys2Proof.Machine.execPulseCheck ra rb s
  | .afterCheck ra rb => Sys2Proof.Machine.execAfterCheck ra rb s
  | .readbackSample ra rb => Sys2Proof.Machine.execReadbackSample ra rb s
  | .commandLinkTransfer ok => Sys2Proof.Machine.execCommandLinkTransfer ok s
  | .outputTestReadbackPass q => Sys2Proof.Machine.execOutputTestReadbackPass q s
  | .outputTestTimeout q => Sys2Proof.Machine.execOutputTestTimeout q s
  | .outputTestEnd q returned => Sys2Proof.Machine.execOutputTestEnd q returned s
  | .testAbort q => Sys2Proof.Machine.execTestAbort q s
  | .outputOverload q => Sys2Proof.Machine.execOutputOverload q s
  | .testFeedOverload n stuck => Sys2Proof.Machine.execTestFeedOverload n stuck s
  | .sensOverload => Sys2Proof.Machine.execSensOverload s
  | .feedOutOfRange side => Sys2Proof.Machine.execFeedOutOfRange side s
  | .feedInRange side dc => Sys2Proof.Machine.execFeedInRange side dc s
  | .stageSoftStartDone side => Sys2Proof.Machine.execStageSoftStartDone side s
  | .stageSelfCheckDone side ok => Sys2Proof.Machine.execStageSelfCheckDone side ok s
  | .stageFailure side overVolt => Sys2Proof.Machine.execStageFailure side overVolt s
  | .holdupCutoff => Sys2Proof.Machine.execHoldupCutoff s
  | .dieRelease => Sys2Proof.Machine.execDieRelease s
  | .standbyTestStart => Sys2Proof.Machine.execStandbyTestStart s
  | .standbyTestEnd ok => Sys2Proof.Machine.execStandbyTestEnd ok s
  | .pwsCmdTest => Sys2Proof.Machine.execPwsCmdTest s
  | .pwsCmdRetry a b => Sys2Proof.Machine.execPwsCmdRetry a b s
  | .rstNClose ohms => Sys2Proof.Machine.execRstNClose ohms s
  | .rstPend => Sys2Proof.Machine.execRstPend s
  | .rstHold => Sys2Proof.Machine.execRstHold s
  | .rstLong => Sys2Proof.Machine.execRstLong s
  | .rstNOpen ohms tenths => Sys2Proof.Machine.execRstNOpen ohms tenths s
  | .powerUp => Sys2Proof.Machine.execPowerUp s
  | .fuseReadDone x7 => Sys2Proof.Machine.execFuseReadDone x7 s
  | .selfTestDone failed => Sys2Proof.Machine.execSelfTestDone failed s
  | .manifestLoadDone => Sys2Proof.Machine.execManifestLoadDone s
  | .translateProveDone vectors => Sys2Proof.Machine.execTranslateProveDone vectors s
  | .fuseResense ra rb => Sys2Proof.Machine.execFuseResense ra rb s
  | .fuseProgram via => Sys2Proof.Machine.execFuseProgram via s
  | .fuseSeal via => Sys2Proof.Machine.execFuseSeal via s
  | .fuseWlock via => Sys2Proof.Machine.execFuseWlock via s
  | .fuseRlock via => Sys2Proof.Machine.execFuseRlock via s
  | .fuseMap via => Sys2Proof.Machine.execFuseMap via s
  | .fuseReburn via => Sys2Proof.Machine.execFuseReburn via s
  | .fuseRead via => Sys2Proof.Machine.execFuseRead via s
  | .fuseCommandDone pulses ok lo hi => Sys2Proof.Machine.execFuseCommandDone pulses ok lo hi s
  | .fuseOverride k r => Sys2Proof.Machine.execFuseOverride k r s
  | .fuseOverrideClear via => Sys2Proof.Machine.execFuseOverrideClear via s
  | .pageProgram ok => Sys2Proof.Machine.execPageProgram ok s
  | .tideCheckpoint => Sys2Proof.Machine.execTideCheckpoint s
  | .chainCheck => Sys2Proof.Machine.execChainCheck s
  | .flushComplete => Sys2Proof.Machine.execFlushComplete s
  | .recordDrop p new old => Sys2Proof.Machine.execRecordDrop p new old s
  | .recPageRead oldest => Sys2Proof.Machine.execRecPageRead oldest s
  | .timerTick n => Sys2Proof.Machine.execTimerTick n s
  | .timerReload n => Sys2Proof.Machine.execTimerReload n s
  | .timerCompareFire n => Sys2Proof.Machine.execTimerCompareFire n s
  | .timerCaptureEdge n rising => Sys2Proof.Machine.execTimerCaptureEdge n rising s
  | .timerCntWrite n v => Sys2Proof.Machine.execTimerCntWrite n v s
  | .timerCmpWrite n v => Sys2Proof.Machine.execTimerCmpWrite n v s
  | .timerCapselWrite n div v => Sys2Proof.Machine.execTimerCapselWrite n div v s
  | .timerCntLowRead n cap ring => Sys2Proof.Machine.execTimerCntLowRead n cap ring s
  | .timGo v => Sys2Proof.Machine.execTimGo v s
  | .timHalt v => Sys2Proof.Machine.execTimHalt v s
  | .debugHalt => Sys2Proof.Machine.execDebugHalt s
  | .chkStart k => Sys2Proof.Machine.execChkStart k s
  | .chkCheck k => Sys2Proof.Machine.execChkCheck k s
  | .chkCheck2 k ring flipsA flipsB => Sys2Proof.Machine.execChkCheck2 k ring flipsA flipsB s
  | .chkFeed8 k v => Sys2Proof.Machine.execChkFeed8 k v s
  | .chkFeed16 k v => Sys2Proof.Machine.execChkFeed16 k v s
  | .chkFeed9 k v => Sys2Proof.Machine.execChkFeed9 k v s
  | .chkFeed18 k v => Sys2Proof.Machine.execChkFeed18 k v s
  | .chkResLRead k => Sys2Proof.Machine.execChkResLRead k s
  | .manifestLoadRefused => Sys2Proof.Machine.execManifestLoadRefused s
  | .bellRelayRelease => Sys2Proof.Machine.execBellRelayRelease s
  | .laneUp p l => Sys2Proof.Machine.execLaneUp p l s
  | .hawserLinkUp l => Sys2Proof.Machine.execHawserLinkUp l s
  | .islandRailRestored d => Sys2Proof.Machine.execIslandRailRestored d s
  | .debugResume => Sys2Proof.Machine.execDebugResume s
  | .hawserSyncSend => Sys2Proof.Machine.execHawserSyncSend s

end Sys2Proof.Machine
end

