-- ==== Sys2Proof/Safety.lean ====
section
/-!
DEFINITION. What claims are stated in: the legal states every step keeps, the SRC bit of a source, what a firing may change,
what the answer to a request may change, and the safe states of the outputs.
-/

namespace Sys2Proof.Machine

/-! ## Legal states -/

/-- Every register file has as many registers as the manual gives it: four ports (R237), 18 blocks of event registers
(R309, R316), four check engines (R351), 16 timers (R340), eight sessions (R278), 16 outputs and 32 inputs (R184, R206). -/
abbrev Shaped (s : State) : Prop :=
  s.ports.length = 4 ∧ s.ev.length = 18 ∧ s.chk.length = 4 ∧ s.tim.t.length = 16 ∧ s.svc.ses.length = 8
    ∧ s.lio.hist.length = 16 ∧ s.lio.disc.length = 32

/-- The stores are in canonical form: both NOR devices (an erased octet reads 0xFF), the A-die's SRAM, and the flipped cells of
both dies' memory rows. -/
abbrev StoresWf (s : State) : Prop :=
  cellWf 0xFF s.norA = true ∧ cellWf 0xFF s.norB = true ∧ cellWf 0 s.mem = true ∧ cellWf 0 s.rows = true

/-- A legal state: the register files, the stores, and a phase code of R75 (0 to 5). -/
abbrev Legal (s : State) : Prop := Shaped s ∧ StoresWf s ∧ s.tide.ph.toNat ≤ 5

/-! ## Several commands -/

/-- The state after some commands, one after the other; none where one of them stops. -/
def execAll : List Instr → State → Option State
  | [], s => some s
  | c :: cs, s =>
    match exec c s with
    | .next t => execAll cs t
    | _ => none

/-! ## Sources -/

/-- STAT.SRC of a source reads 1 where its detector acts on it (R316, R319). -/
def State.fired (s : State) (src : Nat) : Bool :=
  (s.evOf (Config.blockOf src)).src.getLsbD (src - Config.baseOf (Config.blockOf src))

/-- What a firing may change of a die: its Degrade groups and its decision to moor (R329, R330). -/
def ReactsDie (x y : DieState) : Prop :=
  y = { x with degrade := y.degrade, degradeNext := y.degradeNext, found := y.found, mooring := y.mooring }

/-- What a firing may change of the moor sets: what waits for the fence, the sources it keeps, the MOOR frame (R223, R329,
R330, R335). No commanded set, no set in force. -/
def ReactsMoor (x y : MoorSt) : Prop :=
  y = { x with newG := y.newG, newM := y.newM, cmpG := y.cmpG, gSrc := y.gSrc, mSrc := y.mSrc, pendM := y.pendM,
               toA := y.toA, toB := y.toB, moorFrameAt := y.moorFrameAt, moorFrameDue := y.moorFrameDue }

/-- What a firing may change of the pair: the role, the counts that start anew with it, and frames that wait (R251, R258). -/
def ReactsTwin (x y : TwinSt) : Prop :=
  y = { x with role := y.role, roleNext := y.roleNext, resyncCnt := y.resyncCnt, segs := y.segs, resyncHb := y.resyncHb,
               stalled := y.stalled, noLeader := y.noLeader, noPeer := y.noPeer, inputSeen := y.inputSeen,
               unsettled := y.unsettled, seenOff := y.seenOff, seenOn := y.seenOn, diffRun := y.diffRun,
               holdSince := y.holdSince, mirQueue := y.mirQueue }

/-- What a firing may change of the service: a reset of SVC or MGP ends sessions (R298, R323, R400). -/
def ReactsSvc (x y : SvcSt) : Prop :=
  y = { x with ses := y.ses, helm := y.helm, inbox := y.inbox, posted := y.posted, outQ := y.outQ, frags := y.frags,
               ringIn := y.ringIn, failPath := y.failPath }

/-- What a firing may change of the local I/O: where no tide runs, a die that decides to moor drops its commands at once (R27,
log 87). -/
def ReactsLio (runs : Bool) (x y : LioSt) : Prop :=
  (runs = true → y = x)
    ∧ y = { x with cmdA := y.cmdA, wantA := y.wantA, cmdB := y.cmdB, wantB := y.wantB, switching := y.switching }
    ∧ (y.cmdA = x.cmdA ∨ y.cmdA = 0) ∧ (y.cmdB = x.cmdB ∨ y.cmdB = 0)

/-- What a firing may change of a port: its queues and the count of frames sent on lane A (R251, R399). -/
def ReactsPort (x y : Port) : Prop :=
  y = { x with txNow := y.txNow, queueA := y.queueA, queueB := y.queueB, held := y.held }

/-- What a firing may change of a block's event registers: STAT.SRC bits set, never cleared, FIRST, and since when and
when last each source fired (R319, R324). -/
def ReactsEv (x y : EvBlock) : Prop :=
  y = { x with src := y.src, fSev := y.fSev, fConseq := y.fConseq, fSrc := y.fSrc, fTide := y.fTide, fTick := y.fTick,
               since := y.since, last := y.last }
    ∧ x.src ||| y.src = y.src

/-- Everything a firing of any source may change (R319, R324, R328 to R330). -/
structure Reacts (s t : State) : Prop where
  frame : t = { s with
    ev := t.ev, evb := t.evb, rcd := { s.rcd with queue := t.rcd.queue, latest := t.rcd.latest }, moor := t.moor,
    a := t.a, b := t.b, ports := t.ports, twin := t.twin, tx := t.tx, draws := t.draws, settle := t.settle,
    resets := t.resets, svc := t.svc, lio := t.lio, dict := { s.dict with commitBy := t.dict.commitBy } }
  evLength : t.ev.length = s.ev.length
  evOf : ∀ b, ReactsEv (s.evOf b) (t.evOf b)
  dieA : ReactsDie s.a t.a
  dieB : ReactsDie s.b t.b
  moor : ReactsMoor s.moor t.moor
  twin : ReactsTwin s.twin t.twin
  svc : ReactsSvc s.svc t.svc
  lio : ReactsLio s.tide.running s.lio t.lio
  portsLength : t.ports.length = s.ports.length
  port : ∀ n, ReactsPort (s.port n) (t.port n)
  sent : s.tx <+: t.tx

/-- A source fires: where the die that detects it runs its STAT.SRC bit is set, and nothing changes that a firing may not
change. -/
abbrev Fires (s t : State) (src : Nat) : Prop :=
  Reacts s t ∧ (s.runs (detector src false) = true → t.fired src = true)

/-- A source fires exactly where a condition holds. -/
abbrev FiresIf (c : Bool) (s t : State) (src : Nat) : Prop := if c then Fires s t src else t = s

/-- Only records have been added to those that wait for their page (R405). -/
abbrev Recorded (s t : State) : Prop :=
  t = { s with rcd := { s.rcd with queue := t.rcd.queue, latest := t.rcd.latest } }

/-- Only what the module keeps of node n has changed, to y. -/
abbrev NodeBecomes (s t : State) (n : Nat) (y : NodeRec) : Prop :=
  t = { s with nodes := t.nodes } ∧ t.nodes.length = s.nodes.length ∧ t.nodes.getD n {} = y
    ∧ ∀ m, m ≠ n → t.nodes.getD m {} = s.nodes.getD m {}

/-! ## Timers -/

/-- No timer is a slave or captures an OUT level, and nothing waits for the next cycle (R344, R347). -/
abbrev NoSlaves (x : TimSt) : Prop :=
  x.quiet = true ∧ ∀ m : Fin 16, x.mode m.val = 0 ∧ outSource (x.get m.val).csel = false

/-- Of the timers as a whole only the registers have changed, and the OUT levels that the capture inputs have seen, which follow
the registers where they did (R344). -/
def TimersKeep (x y : TimSt) : Prop :=
  y = { x with t := y.t, seen := y.seen } ∧ (x.seen = x.outs → y.seen = y.outs)

/-- A timer after an evaluation of its compare with the count c against the compare value p, both n bits wide (R342, R345). -/
def Timer.evaluated {n : Nat} (t : Timer) (c p : BitVec n) : Timer :=
  if t.arm && decide ((c - p).toNat < 2 ^ (n - 1)) then { t with out := true, arm := false, cmpf := true } else t

/-- A flag of the timer has risen while its enable bit is 1 (R350). -/
def Timer.rings (before after : Timer) : Bool :=
  (after.wrap && !before.wrap && before.ctrl.getLsbD 11) || (after.capf && !before.capf && before.ctrl.getLsbD 10)
    || (after.cmpf && !before.cmpf && before.ctrl.getLsbD 9)

/-- Only timer n has changed, to u, and its pair's source fires exactly where one of its enabled flags has risen. -/
def TimerBecomes (s t : State) (n : Fin 16) (u : Timer) : Prop :=
  t.tim.get n.val = u ∧ (∀ m : Fin 16, m ≠ n → t.tim.get m.val = s.tim.get m.val)
    ∧ TimersKeep s.tim t.tim
    ∧ (if (s.tim.get n.val).rings u then
        Reacts { s with tim := t.tim } t ∧ (s.runs .A = true → t.fired (114 + n.val / 2) = true)
      else t = { s with tim := t.tim })

/-- Timers n and n + 1, a linked pair, have changed, to u and w, and no other. -/
def PairBecomes (s t : State) (n : Fin 16) (u w : Timer) : Prop :=
  t.tim.get n.val = u ∧ t.tim.get (n.val + 1) = w
    ∧ (∀ m : Fin 16, m ≠ n → m.val ≠ n.val + 1 → t.tim.get m.val = s.tim.get m.val)
    ∧ TimersKeep s.tim t.tim
    ∧ (if (s.tim.get n.val).rings u || (s.tim.get (n.val + 1)).rings w then
        Reacts { s with tim := t.tim } t ∧ (s.runs .A = true → t.fired (114 + n.val / 2) = true)
      else t = { s with tim := t.tim })

/-- What the high word of a pair keeps of its count, or of its captured count, for a ring (R346). -/
def Timer.snapshot (t : Timer) (cap : Bool) (ring : Ring) : Word :=
  match ring, cap with
  | .exec, false => t.snapCntE
  | .part, false => t.snapCntP
  | .exec, true => t.snapCapE
  | .part, true => t.snapCapP

/-- The high word of a pair after a read of its low word by a ring (R346). -/
def Timer.latched (t : Timer) (cap : Bool) (ring : Ring) : Timer :=
  match ring, cap with
  | .exec, false => { t with snapCntE := t.cnt }
  | .part, false => { t with snapCntP := t.cnt }
  | .exec, true => { t with snapCapE := t.cap }
  | .part, true => { t with snapCapP := t.cap }

/-- The 36-bit count of a linked pair from its two words (R345). -/
def pair36 (l h : Word) : BitVec 36 := h ++ l

/-! ## Requests -/

/-- What answering a request may change: the session and what it sends, records, and, where the last counter ends the
session, what its end frees (R279, R280, R283). -/
structure Answers (s t : State) : Prop where
  frame : t = { s with
    svc := { s.svc with ses := t.svc.ses, helm := t.svc.helm, inbox := t.svc.inbox, posted := t.svc.posted, outQ := t.svc.outQ,
                        frags := t.svc.frags, ringIn := t.svc.ringIn },
    rcd := { s.rcd with queue := t.rcd.queue, latest := t.rcd.latest }, tx := t.tx,
    dict := { s.dict with commitBy := t.dict.commitBy } }
  sessions : t.svc.ses.length = s.svc.ses.length
  sent : s.tx <+: t.tx

/-- Slot r of session k holds a completed request q whose stored RESPONSE carries this status and value and the tide in
progress (R283). -/
def State.responds (s : State) (k : Fin 8) (r : Fin 16) (q : Req) (status : Nat) (value : Octets) : Prop :=
  ∃ sl, s.slot k.val r.val = some sl ∧ sl.st = .done ∧ sl.req = q ∧ sl.resp = respBody q status s.now s.now value

/-- A command answers request q in slot r of session k with a status and a value, and changes nothing else. -/
def Responds (c : Instr) (s : State) (k : Fin 8) (r : Fin 16) (q : Req) (status : Nat) (value : Octets) : Prop :=
  ∃ t, exec c s = .next t ∧ Answers s t ∧ t.responds k r q status value

/-- A WRITE in slot r of session k executes: what it does to the module gives s1, and its request is completed with status 0
and the tide from which it is in force, or with the FENCE flag waits for that tide (R285, R287). -/
def Executes (c : Instr) (s : State) (k : Fin 8) (r : Fin 16) (sl : Slot) (s1 : State) (ift : Tide) : Prop :=
  ∃ t, exec c s = .next t ∧ Answers s1 t
    ∧ if sl.req.fence && !reached s.now ift then t.slot k.val r.val = some { sl with st := .inForceAt s.now ift, ift := ift }
      else ∃ x, t.slot k.val r.val = some x ∧ x.st = .done ∧ x.req = sl.req ∧ x.resp = respBody sl.req 0 s.now ift []

/-- The session of a request is open and has counter values left (R279). -/
def State.lasts (s : State) (k : Fin 8) : Bool := (s.ses k.val).any fun x => x.txCnt.toNat + 1 < 0xFFFFFFFF

/-- The WRITE in slot r of session k names entry e and passes the stages of R284 before the entry's own rule: it may
execute, its form and entry are right, the session may write the entry and holds the Helm, the moored conditions and the
type hold. -/
def State.mayWriteNow (s : State) (k : Fin 8) (r : Fin 16) (e : Nat) (sl : Slot) : Bool :=
  readyOp s k r 1 = some sl && sl.req.entry.toNat = e && earlyStatus s sl.req = 0 && rightCodes s k e sl.req.data = []

/-! ## The comparison -/

/-- The groups on which a die compares and finds another signature, and those whose signature has not arrived (R56, R167). -/
def DieState.finds (x : DieState) (diff miss : GSet) : Prop :=
  ∀ g, g < 512 →
    (gHas diff g = true ↔ gHas x.found g = false ∧ ∃ v, x.sigFrame g = some v ∧ v ≠ x.sigs.getD g 0)
    ∧ (gHas miss g = true ↔ gHas x.found g = false ∧ x.sigFrame g = none)

/-- A die takes part in the comparison and has not reached its verdict. -/
def State.compares (s : State) (d : Die) : Bool := s.runs d && (s.die d).armed && !(s.die d).sigDeadline

/-- Each die that compares has formed its verdict `us` µs into the tide, what it found has fired, and nothing else has
changed (R165, R167). -/
def Compared (us : Nat) (s t : State) : Prop :=
  ∃ s1, s1 = { s with tide := { s.tide with tick := s1.tide.tick }, a := s1.a, b := s1.b }
    ∧ s1.tide.tick.toNat = max s.tide.tick.toNat (Config.tickAt us).toNat ∧ Reacts s1 t
    ∧ (∀ d, s.compares d = false → s1.die d = s.die d)
    ∧ (∀ d, s.compares d = true → ∃ diff miss : GSet, (s.die d).finds diff miss
        ∧ (let x := s.die d
          let many := decide (15 < gCount (diff ||| miss))
          let moor := (decide (x.found = 0) && decide (x.otherDig ≠ some x.dig)) || many
          s1.die d = { x with
            sigDeadline := true, verdictMoor := moor, many := many,
            verdict := if moor then [] else (gList (diff ||| miss)).map fun g => BitVec.ofNat 9 g }
          ∧ (x.found = 0 → x.otherDig = none → t.fired 11 = true)
          ∧ (x.found = 0 → x.otherDig ≠ none → x.otherDig ≠ some x.dig → t.fired 10 = true)
          ∧ (diff ≠ 0 → t.fired 8 = true) ∧ (miss ≠ 0 → t.fired 9 = true)))
    ∧ ((∀ d, s.compares d = true → ((s.die d).found = 0 → (s.die d).otherDig = some (s.die d).dig)
        ∧ (s.die d).finds 0 0) → t = s1)

/-! ## Outputs -/

/-- No local safe output is commanded on by either die. -/
def State.outputsOff (s : State) : Bool := s.lio.cmdA = 0 && s.lio.cmdB = 0

end Sys2Proof.Machine
end

