-- ==== Sys2Proof/Certificates/Slice0/Obligations.lean ====
section
/-!
DEFINITION. The statements for the provers: what the block as a whole does, its encodings and blocks of evaluation, and
what every command does, family by family.
-/

open Sys2Proof Sys2Proof.Machine

/-- A step takes the command at the front of the queue and runs it on the state with the queue's rest. On an empty queue
one intra-tide tick passes, a choice of the model (log 1): the tick goes on to 4,095 at most. No word of the table spells
a command, so placing one changes nothing. -/
def Obligations.QueueRunsInOrder : Prop :=
  (∀ (c : Instr) (s : State), step { s with pending := c :: s.pending } = exec c s)
  ∧ (∀ s : State, s.pending = [] → ∃ t, step s = .next t ∧ t.pending = []
      ∧ t.tide = { s.tide with tick := t.tide.tick }
      ∧ (s.tide.running = false → t.tide.tick = s.tide.tick)
      ∧ (s.tide.running = true → t.tide.tick.toNat = min (s.tide.tick.toNat + 1) 4095))
  ∧ ∀ (s : State) (nbits w : Nat), decodeTableWord nbits w = none ∧ s.withFetchWord nbits w = s

/-- Right after reset no command waits and the module is Off, moored, at tide 0 with no tide running, in the Resync role,
with no die released, no lane up, no session open, no Manifest active, no output commanded on, both stores empty and
nothing sent; every source is unset at its catalogue severities, the check engines stand at their initial values and no
timer runs. The state is legal (R13, R75, R316, R332, R352, R392; the tide numbers, the role of an unloaded module and the
register resets that the manual leaves out are the model's choices: log 21, log 22, log 24). -/
def Obligations.ResetIsOffAndMoored : Prop :=
  let s := State.reset
  Legal s ∧ s.pending = [] ∧ s.mode = .off ∧ s.tide.running = false ∧ s.tide.num = 0 ∧ s.tide.per = 2 ∧ s.twin.role = .resync
  ∧ (∀ d : Die, s.runs d = false ∧ (s.die d).net = none ∧ (s.die d).mooring = true) ∧ s.mooredM = true
  ∧ (∀ (p : Fin 4) (l : Lane), laneUp s p.val l = false) ∧ (∀ k : Fin 8, s.ses k.val = none) ∧ s.svc.helm.holder = none
  ∧ s.man.stage = 0 ∧ s.outputsOff = true ∧ s.norA = [] ∧ s.norB = [] ∧ s.tx = [] ∧ s.bells.relay = false
  ∧ (∀ src : Fin 144, s.fired src.val = false ∧ s.sevOf src.val = (Config.sevDefault src.val).toNat)
  ∧ (∀ k : Fin 4, (s.eng k.val).reg = 0xFFFFFFFF ∧ (s.eng k.val).poly = 0 ∧ (s.eng k.val).fed = 0)
  ∧ (∀ n : Fin 16, (s.tim.get n.val).ctrl = 0)

/-- Every step keeps a legal state legal: the register files keep their size, both NOR devices and the SRAM their
canonical form, the phase code stays one of R75. It consumes the command in front and no other, and takes back nothing
that the module has sent. -/
def Obligations.EveryStepKeepsLegalStates : Prop :=
  ∀ s : State, Legal s → ∃ t, step s = .next t ∧ Legal t ∧ s.tx <+: t.tx ∧ t.pending = s.pending.tail

/-- What the line format carries is read back whole: parsing the frame built of a telegram gives that telegram, under the
VLAN ID and EtherType it was built for and no other (R209, R210, R212). -/
def Obligations.FramesAreReadBackWhole : Prop :=
  ∀ (f : Lst) (vid etype maxLen : Nat), vid < 4096 → etype < 65536 → f.payload.length ≤ maxLen → maxLen < 65536 →
    lstParse vid etype maxLen (lstWire vid etype f) = some f
    ∧ ∀ v e, v < 4096 → e < 65536 → v ≠ vid ∨ e ≠ etype → lstParse v e maxLen (lstWire vid etype f) = none

/-- The module sends a committed word with Q = 00 as VALID 1 with its VAL and one with Q = 10 or 11 as VALID 0 with the
point's safe value. A field that arrives with VALID 0, or an analogue field whose 0 bit is set, enters the point with Q =
10 and its safe value; one that arrives with VALID 1 enters Q = 00 with VALUE. So a field block read back gives every
point its word, or the substituted word where it was not valid (R214). -/
def Obligations.FieldsCarryValidWords : Prop :=
  (∀ (d : Decl) (w : Word), d.safe < 4096 →
    (d.ana = true → ∃ v : BitVec 12, v.toNat = (if qOf w = 0 then valOf w else d.safe)
      ∧ fieldBits d w = decide (qOf w = 0) :: false :: (List.range 12).map fun j => v.getLsbD (11 - j))
    ∧ (d.ana = false → fieldBits d w = [decide (qOf w = 0), decide ((if qOf w = 0 then valOf w else d.safe) % 2 = 1)]))
  ∧ (∀ (n : Net) (p : Nat) (ps : List Nat) (valid zero : Bool) (v : BitVec 12) (bs : List Bool),
      ((n.decl p).ana = true →
        blockWords n (p :: ps) (valid :: zero :: (List.range 12).map (fun j => v.getLsbD (11 - j)) ++ bs)
          = (p, if valid && !zero then v.setWidth 18 else BitVec.ofNat 18 (0o400000 + (n.decl p).safe)) :: blockWords n ps bs)
      ∧ ((n.decl p).ana = false →
        blockWords n (p :: ps) (valid :: zero :: bs)
          = (p, if valid then (if zero then 1 else 0) else BitVec.ofNat 18 (0o400000 + (n.decl p).safe)) :: blockWords n ps bs))
  ∧ ∀ (n : Net) (ps : List Nat) (rd : Nat → Word),
      (∀ p, p ∈ ps → (n.decl p).safe < 4096 ∧ ((n.decl p).ana = false → valOf (rd p) < 2)) →
      blockWords n ps (unpackBits (fieldBlock n ps rd)) = ps.map fun p =>
        (p, if qOf (rd p) = 0 then BitVec.ofNat 18 (valOf (rd p)) else BitVec.ofNat 18 (0o400000 + (n.decl p).safe))

/-- AND is 1 when every input is 1, OR when any is, NOT inverts, MAJ23 is 1 when at least two of three are, SEL takes d1
for sel 1 and d0 for sel 0. An output that takes one value for every possible value of the invalid operands is determined
and valid with that value; any other is substituted with the point's safe value (R120, R126). -/
def Obligations.LogicOutputsAreDetermined : Prop :=
  ∀ (n : Net) (per : Nat) (tide : Tide) (moored : Bool) (i : Inst) (ws : List Word),
    let fits (x : Bool) (w : Word) : Prop := wValid w = true → w.getLsbD 0 = x
    let fitsVal (x : Nat) (w : Word) : Prop := x < 4096 ∧ (wValid w = true → valOf w = x)
    let out := (evalInst n per tide moored i ws .none).outs
    let subst := BitVec.ofNat 18 (0o400000 + (n.decl (i.outs.getD 0 0).toNat).safe)
    (∀ f : List Bool → Bool,
        (i.op = 0o010 ∧ f = fun xs => xs.all id) ∨ (i.op = 0o011 ∧ f = fun xs => xs.any id)
          ∨ (i.op = 0o012 ∧ ws.length = 1 ∧ f = fun xs => !xs.headD false)
          ∨ (i.op = 0o013 ∧ ws.length = 3 ∧ f = fun xs => decide (2 ≤ countIf xs id)) →
        (∀ v, (∀ xs, List.Forall₂ fits xs ws → f xs = v) → out = [if v then 1 else 0])
        ∧ ((∀ v, ∃ xs, List.Forall₂ fits xs ws ∧ f xs ≠ v) → out = [subst]))
    ∧ (i.op = 0o014 → ∀ sel d0 d1, ws = [sel, d0, d1] →
        let takes (v : Nat) : Prop := ∃ x a b, fits x sel ∧ fitsVal a d0 ∧ fitsVal b d1 ∧ v = if x then b else a
        (∀ v, (∀ u, takes u ↔ u = v) → out = [BitVec.ofNat 18 v])
        ∧ ((∃ u v, u ≠ v ∧ takes u ∧ takes v) → out = [subst]))

/-- The sweep of tide t is groups 8·(t mod 64) to 8·(t mod 64) + 7, so every group is swept once in 64 tides. When a swept
logic instance computes an output word that differs from the word the incremental rule would have kept, Channel A uses the
computed word and raises source 27 for the group; without a difference it raises nothing. One with an uncorrectable word
of its own computes the substituted one (R155). -/
def Obligations.SweepsGuardTheChangeTracking : Prop :=
  (∀ (t : Tide) (g : Nat), inSweep t g = true ↔ 8 * (t.toNat % 64) ≤ g ∧ g ≤ 8 * (t.toNat % 64) + 7)
  ∧ (∀ (t : Tide) (g : Nat), g < 512 → ∃ j, j < 64 ∧ ∀ k, k < 64 → (inSweep (tideAdd t k) g = true ↔ k = j))
  ∧ ∀ (s : State) (basis : BitVec 2) (k o : Nat), Shaped s → cellWf 0o600000 s.a.working = true →
    let i := s.netX.inst k
    let ws := operands s .A s.netX s.a.working k
    i.outs.map (·.toNat) = [o] → isLogic i = true → inSweep s.now i.group = true → s.a.lastOps.getD k none = some ws →
    let outs := if (s.badInsts .A).contains k then [subOut s.netX i 0]
      else (evalInst s.netX s.per s.now (s.groupMoored i.group) i ws (s.a.inst.getD k .none)).outs
    ∀ w, outs = [w] →
      bankGet (evalKA s basis k).a.working o = w
      ∧ ∃ u, u.ev = s.ev ∧ u.moor = s.moor ∧ evalKA s basis k =
          if w = bankGet s.a.working o then u else fire u 27 (gBit i.group) (BitVec.ofNat 32 k)

/-- A word's codeword holds it in bits 17:0, gives each of c0 to c4 the parity of the data bits whose syndrome code has
that bit, and c5 that of all the rest. It decodes to the word, and so does the codeword with any one bit inverted; with
any two inverted it is uncorrectable (R20, R90). -/
def Obligations.CodewordsCorrectOneBitAndFindTwo : Prop :=
  ∀ w : Word,
    let cw := eccEncode w
    (∀ i : Fin 18, cw.getLsbD i.val = w.getLsbD i.val)
    ∧ (∀ k : Fin 5, cw.getLsbD (18 + k.val)
        = ((List.range 18).foldl (fun p i => p != (w.getLsbD i && (eccCodes.getD i 0).testBit k.val)) false))
    ∧ (List.range 24).foldl (fun p i => p != cw.getLsbD i) false = false
    ∧ eccDecode cw = some w
    ∧ (∀ i : Fin 24, eccDecode (cw ^^^ BitVec.twoPow 24 i.val) = some w)
    ∧ ∀ i j : Fin 24, i ≠ j → eccDecode (cw ^^^ BitVec.twoPow 24 i.val ^^^ BitVec.twoPow 24 j.val) = none

/-- START loads the initial value INITSEL selects, takes POLY, and clears FED and RESULT; each feed register passes its
bits in the order of R353 and adds them to FED, which saturates; nothing else changes (R351 to R354). CHECK compares the
result with EXP; CHECK2 judges it against two copies, with cells of theirs flipped, by the table of R355; any outcome but
a pass fires the engine's source; a read of RES_L returns bits 15:0 and latches bits 31:16 (R354 to R357). -/
def Obligations.ChecksRun : Prop :=
  (∀ (s : State) (k : Fin 4) (v : Word), Shaped s →
    let c := s.eng k.val
    let only (t : State) (e : Chk) : Prop :=
      t.eng k.val = e ∧ (∀ j, j ≠ k.val → t.eng j = s.eng j) ∧ t = { s with chk := t.chk }
    let fed (reg : BitVec 32) (n u : Nat) : BitVec 32 := (chkOrder c.poly n u).foldl (chkBit c.poly) reg
    let count (n : Nat) : Word := BitVec.ofNat 18 (min 0o777777 (c.fed.toNat + n))
    (∃ t, exec (.chkStart k) s = .next t
      ∧ only t { c with poly := c.ctrl.setWidth 2, reg := c.initial, fed := 0, result := 0 })
    ∧ (∃ t, exec (.chkFeed8 k v) s = .next t ∧ only t { c with reg := fed c.reg 8 (v.toNat % 256), fed := count 8 })
    ∧ (∃ t, exec (.chkFeed16 k v) s = .next t
      ∧ only t { c with reg := fed (fed c.reg 8 (v.toNat / 256 % 256)) 8 (v.toNat % 256), fed := count 16 })
    ∧ (∃ t, exec (.chkFeed9 k v) s = .next t ∧ only t { c with reg := fed c.reg 9 (v.toNat % 512), fed := count 9 })
    ∧ (∃ t, exec (.chkFeed18 k v) s = .next t ∧ only t { c with reg := fed c.reg 18 v.toNat, fed := count 18 }))
  ∧ (∀ (s : State) (k : Fin 4) (ring : Ring) (flipsA flipsB : BitVec 24), Shaped s →
    let c := s.eng k.val
    let found := (s.rowFlip .A c.cva.toNat flipsA).rowFlip .A c.cvb.toNat flipsB
    let a := chkCopy found ring c.cva
    let b := chkCopy found ring c.cvb
    let only (t : State) (e : Chk) : Prop := t.eng k.val = e ∧ ∀ j, j ≠ k.val → t.eng j = s.eng j
    let reports (s t : State) (r : BitVec 3) : Prop :=
      if r = 1 then t = { s with chk := t.chk }
      else Reacts { s with chk := t.chk } t ∧ (s.runs .A = true → t.fired (122 + k.val) = true)
    (∃ t, exec (.chkCheck k) s = .next t
      ∧ only t (if c.res = c.exp then { c with result := 1 } else { c with result := 2, mis := true })
      ∧ reports s t (if c.res = c.exp then 1 else 2))
    ∧ (∃ t, exec (.chkCheck2 k ring flipsA flipsB) s = .next t
      ∧ (∀ r mis cvc,
          (r, mis, cvc) = (match a.1, b.1 with
            | some x, some y =>
              if x = y then (if c.res = x then (1, false, false) else (2, true, false))
              else if c.res = x ∨ c.res = y then (3, false, true) else (4, true, true)
            | some x, none => if c.res = x then (3, false, true) else (4, true, true)
            | none, some y => if c.res = y then (3, false, true) else (4, true, true)
            | none, none => ((5 : BitVec 3), false, true)) →
          only t { c with result := r, mis := c.mis || mis, cvc := c.cvc || cvc, adr := c.adr || a.2 || b.2 }
            ∧ reports found t r))
    ∧ (∃ t, exec (.chkResLRead k) s = .next t
      ∧ only t { c with snapH := (c.res >>> 16).setWidth 16 }
      ∧ t = { s with chk := t.chk,
                     core := { s.core with busData := (c.res.setWidth 16).setWidth 18, busErr := false } }))

/-- An engine started with the standard initial value and fed octets through FEED8 computes CRC-32C under code 1 and
CRC-32K under code 2, the two signature algorithms of R215, and CRC-16/CCITT under code 3 (R352 to R354). -/
def Obligations.EnginesComputeTheSignatures : Prop :=
  ∀ (s : State) (k : Fin 4) (os : Octets) (code : BitVec 3), Shaped s → (s.eng k.val).ctrl = code → 1 ≤ code.toNat →
    code.toNat ≤ 3 →
    ∃ t, execAll (.chkStart k :: os.map fun o => .chkFeed8 k (o.setWidth 18)) s = some t
      ∧ (t.eng k.val).res =
        (if code = 1 then crc32c os else if code = 2 then crc32k os else (crc16 os).setWidth 32)
      ∧ t = { s with chk := t.chk }

/-- A tick of a timer that is no word of a linked pair: at PER it reloads, otherwise it counts; then the compare is
evaluated. A tick of a pair does the same to the 36-bit count. A timer that makes no tick, and a reload before the end of
the period, change nothing (R341, R342, R345, R347, R349). Slaves act afterwards, by the first clause. A write of CNT or
CMP sets the register, arms the compare where it is CMP, and evaluates it; in the high word of a pair it is staged, and a
write of the low word takes what is staged. A compare step evaluates an armed compare. A write of CAPSEL or CAPDIV sets
ECNT to 0 (R340, R342, R343, R345). -/
def Obligations.TimersCountCompareAndTakeWrites : Prop :=
  (∀ (s : State) (n : Fin 16), Shaped s →
    let x := s.tim
    let r := x.get n.val
    let h := x.get (n.val + 1)
    (x.ticks n.val = true → exec (.timerTick n) s = .next (settleTimers (timTick s n.val)))
    ∧ (x.ticks n.val = false → exec (.timerTick n) s = .next s)
    ∧ exec (.timerReload n) s = (if x.ticks n.val && x.atEnd n.val then exec (.timerTick n) s else .next s)
    ∧ (NoSlaves x → x.ticks n.val = true → x.isLow n.val = false →
        let u := if r.per.toNat ≤ r.cnt.toNat then { r with cnt := 0, wrap := true, out := false, arm := true }
          else { r with cnt := r.cnt + 1 }
        ∃ t, exec (.timerTick n) s = .next t ∧ TimerBecomes s t n (u.evaluated u.cnt u.cmp))
    ∧ (NoSlaves x → x.ticks n.val = true → x.isLow n.val = true →
        let ends := decide ((pair36 0o777777 h.per).toNat ≤ (pair36 r.cnt h.cnt).toNat)
        let u := if ends then { r with cnt := 0, wrap := r.wrap || r.cnt = 0o777777, out := false, arm := true }
          else { r with cnt := r.cnt + 1, wrap := r.wrap || r.cnt = 0o777777 }
        let w := if ends then { h with cnt := 0, wrap := true } else if r.cnt = 0o777777 then { h with cnt := h.cnt + 1 } else h
        ∃ t, exec (.timerTick n) s = .next t
          ∧ PairBecomes s t n (u.evaluated (pair36 u.cnt w.cnt) (pair36 u.cmp w.cmp)) w))
  ∧ (∀ (s : State) (n : Fin 16) (v : Word), Shaped s →
    let x := s.tim
    let r := x.get n.val
    let h := x.get (n.val + 1)
    (x.isHigh n.val = true →
        (∃ t, exec (.timerCntWrite n v) s = .next t ∧ TimerBecomes s t n { r with stCnt := some v })
        ∧ (∃ t, exec (.timerCmpWrite n v) s = .next t ∧ TimerBecomes s t n { r with stCmp := some v })
        ∧ exec (.timerCompareFire n) s = .next s)
    ∧ (x.isHigh n.val = false →
        exec (.timerCntWrite n v) s = .next (cntWrite s n.val v) ∧ exec (.timerCmpWrite n v) s = .next (cmpWrite s n.val v)
        ∧ exec (.timerCompareFire n) s = .next (settleTimers (compareEval s n.val)))
    ∧ (NoSlaves x → x.isHigh n.val = false → x.isLow n.val = false →
        (∃ t, exec (.timerCntWrite n v) s = .next t
          ∧ TimerBecomes s t n (({ r with cnt := v } : Timer).evaluated v r.cmp))
        ∧ (∃ t, exec (.timerCmpWrite n v) s = .next t
          ∧ TimerBecomes s t n (({ r with cmp := v, arm := true } : Timer).evaluated r.cnt v))
        ∧ (∃ t, exec (.timerCompareFire n) s = .next t ∧ TimerBecomes s t n (r.evaluated r.cnt r.cmp)))
    ∧ (NoSlaves x → x.isLow n.val = true →
        (∃ t, exec (.timerCntWrite n v) s = .next t
          ∧ PairBecomes s t n (({ r with cnt := v } : Timer).evaluated (pair36 v (h.stCnt.getD h.cnt)) (pair36 r.cmp h.cmp))
              { h with cnt := h.stCnt.getD h.cnt, stCnt := none })
        ∧ (∃ t, exec (.timerCmpWrite n v) s = .next t
          ∧ PairBecomes s t n
              (({ r with cmp := v, arm := true } : Timer).evaluated (pair36 r.cnt h.cnt) (pair36 v (h.stCmp.getD h.cmp)))
              { h with cmp := h.stCmp.getD h.cmp, stCmp := none })
        ∧ (∃ t, exec (.timerCompareFire n) s = .next t
          ∧ PairBecomes s t n (r.evaluated (pair36 r.cnt h.cnt) (pair36 r.cmp h.cmp)) h))
    ∧ (∃ t, exec (.timerCapselWrite n false v) s = .next t ∧ TimerBecomes s t n { r with capsel := v &&& 0o637477, ecnt := 0 })
    ∧ (∃ t, exec (.timerCapselWrite n true v) s = .next t ∧ TimerBecomes s t n { r with eps := v.setWidth 8, ecnt := 0 }))

/-- An edge of a local input that the timer selects is counted, and the (EPS + 1)-th one captures the count, in both words
of a pair; a pulse of the tide does the same at every timer that captures it, and an OUT level that has changed in the
next cycle (R343 to R345, R349). A read that the ring may make of the low word of a pair returns it and latches the high
word for that ring; a read of the high word returns what was latched; a partition's read that its regions refuse is the
fault of R36 (R33, R346). -/
def Obligations.TimerCapturesAndReads : Prop :=
  ∀ (s : State) (n : Fin 16) (rising cap : Bool) (ring : Ring), Shaped s →
    let x := s.tim
    let r := x.get n.val
    let h := x.get (n.val + 1)
    let takes := !x.isHigh n.val && !x.frozen n.val && r.selects rising
    let addr : BitVec 24 := BitVec.ofNat 24 (0o77130002 + 16 * n.val + (if cap then 3 else 0))
    (inSource r.csel = false → exec (.timerCaptureEdge n rising) s = .next s)
    ∧ (inSource r.csel = true → exec (.timerCaptureEdge n rising) s = .next (settleTimers (capEdge s n.val rising)))
    ∧ (takes = false → capEdge s n.val rising = s)
    ∧ (x.quiet = true → settleTimers s = s)
    ∧ (NoSlaves x → inSource r.csel = true → takes = true → r.ecnt.toNat < r.eps.toNat →
        ∃ t, exec (.timerCaptureEdge n rising) s = .next t ∧ TimerBecomes s t n { r with ecnt := r.ecnt + 1 })
    ∧ (NoSlaves x → inSource r.csel = true → takes = true → r.eps.toNat ≤ r.ecnt.toNat →
        let u := { r with cap := r.cnt, ecnt := 0, capf := true, ovr := r.ovr || r.capf }
        ∃ t, exec (.timerCaptureEdge n rising) s = .next t
          ∧ (if x.isLow n.val then PairBecomes s t n u { h with cap := h.cnt } else TimerBecomes s t n u))
    ∧ (∀ c, (∀ m : Fin 16, m ≠ n → (x.get m.val).csel ≠ c) →
        capSignal s c rising = if r.csel = c then capEdge s n.val rising else s)
    ∧ (ringRuns s ring = false → exec (.timerCntLowRead n cap ring) s = .next s)
    ∧ (ringRuns s ring = true → ringMay s ring .read addr.toNat = false →
        exec (.timerCntLowRead n cap ring) s = .next (accessFault s .read addr))
    ∧ (ringRuns s ring = true → ringMay s ring .read addr.toNat = true →
        ∃ t, exec (.timerCntLowRead n cap ring) s = .next t
        ∧ t.core = { s.core with busErr := false, busData := if x.isHigh n.val then r.snapshot cap ring else if cap then r.cap else r.cnt }
        ∧ (∀ m : Fin 16, t.tim.get m.val =
            if x.isLow n.val && decide (m.val = n.val + 1) then h.latched cap ring else x.get m.val)
        ∧ t = { s with core := t.core, tim := { x with t := t.tim.t } })

/-- GO and HALT set RUN in the timers they name whose GOEN is 1 and which are no high word of a pair; what reaches a
frozen timer waits for the core to resume. A halt of the core is taken in Bench with DEBUG_DIS at 0. At a tide boundary
the source of a pair of timers, or of a check engine, is cleared once 512 tides have passed since it fired (R306, R348 to
R350, R357, R366). -/
def Obligations.TimerRunControl : Prop :=
  ∀ (s : State) (v : Word), Shaped s →
    let x := s.tim
    let may (n : Fin 16) : Bool := (x.get n.val).goen && !x.isHigh n.val
    (∃ t, exec (.timGo v) s = .next t
      ∧ (∀ n : Fin 16, t.tim.get n.val =
          (if v.getLsbD n.val && !x.frozen n.val && may n then (x.get n.val).setRun true else x.get n.val)
          ∧ t.tim.heldGo.getLsbD n.val = (x.heldGo.getLsbD n.val || (v.getLsbD n.val && x.frozen n.val))
          ∧ t.tim.heldHalt.getLsbD n.val = (x.heldHalt.getLsbD n.val && !(v.getLsbD n.val && x.frozen n.val)))
      ∧ t = { s with tim := { x with t := t.tim.t, heldGo := t.tim.heldGo, heldHalt := t.tim.heldHalt } })
    ∧ (∃ t, exec (.timHalt v) s = .next t
      ∧ (∀ n : Fin 16, t.tim.get n.val =
          (if v.getLsbD n.val && !x.frozen n.val && may n then (x.get n.val).setRun false else x.get n.val)
          ∧ t.tim.heldHalt.getLsbD n.val = (x.heldHalt.getLsbD n.val || (v.getLsbD n.val && x.frozen n.val))
          ∧ t.tim.heldGo.getLsbD n.val = (x.heldGo.getLsbD n.val && !(v.getLsbD n.val && x.frozen n.val)))
      ∧ t = { s with tim := { x with t := t.tim.t, heldGo := t.tim.heldGo, heldHalt := t.tim.heldHalt } })
    ∧ exec .debugHalt s
        = .next (if s.start.bench && !s.fus.a.wires.debugDis then { s with tim := { x with halt := true } } else s)
    ∧ (x.halt = false → exec .debugResume s = .next s)
    ∧ (x.halt = true → ∃ t, exec .debugResume s = .next t
      ∧ (∀ n : Fin 16, t.tim.get n.val =
          if x.heldHalt.getLsbD n.val && may n then (x.get n.val).setRun false
          else if x.heldGo.getLsbD n.val && may n then (x.get n.val).setRun true else x.get n.val)
      ∧ t = { s with tim := { x with t := t.tim.t, halt := false, heldGo := 0, heldHalt := 0 } })
    ∧ (∀ k : Fin 12,
        let src := 114 + k.val
        let due := ((s.evOf (Config.blockOf src)).since.getD (src - Config.baseOf (Config.blockOf src)) none).any
          fun t => reached s.now (tideAdd t 512)
        let clears := s.runs .A && decide (s.tide.ph = 0) && decide (s.tide.tick = 0) && s.fired src && due
        (clears = false → exec (.timSourceClear k) s = .next s)
        ∧ (clears = true → ∃ t, exec (.timSourceClear k) s = .next t
          ∧ (∀ j : Fin 144, t.fired j.val = (s.fired j.val && decide (j.val ≠ src)))
          ∧ t = { s with ev := t.ev, rcd := t.rcd, moor := { s.moor with gSrc := t.moor.gSrc, mSrc := t.moor.mSrc } }))

/-- A firing on a die that runs sets STAT.SRC and changes nothing beyond what reactions may change: applied Alert or
Record moors nothing; Degrade puts the affected groups into what waits for the fence; Moor makes the detecting die decide
and signal the other. A die held in reset detects nothing; what front end B finds of sources 98 and 99 makes the B-die
decide too. A signalled die decides too; an uncorrectable word stays unusable and raises its source, without touching
another word; a parity fault sets PARERR, enters FIRST where it held none, and moors the module by the die that holds the
registers, on the B-die with source 43 (R19, R20, R205, R317, R319, R320, R322, R324, R327 to R330). -/
def Obligations.SourcesFireAndMoor : Prop :=
  ∀ (s : State), Shaped s →
    (∀ (src : Fin 144) (gs : GSet) (subj : BitVec 32),
      let s0 := lioFound s src.val subj
      let g := affected s src.val gs subj
      let d := detector src.val false
      let sv := s.applied src.val g
      let both := src = 98 ∨ src = 99
      s0 = { s with lio := s0.lio } ∧ (src = 99 → s0.lio.linkDown = true) ∧ (src ≠ 99 → src ≠ 103 → src ≠ 113 → s0 = s)
      ∧ (s.runs d = false → ¬ both → exec (.eventSourceFires src gs subj) s = .next s0)
      ∧ (both → s.runs .B = true → ∃ t, exec (.eventSourceFires src gs subj) s = .next t ∧ t.b.mooring = true)
      ∧ (s.runs d = true → ∃ t, exec (.eventSourceFires src gs subj) s = .next t ∧ Reacts s0 t ∧ t.fired src.val = true
          ∧ (sv ≤ 1 → t.a = s.a ∧ (¬ both → t.moor = s.moor ∧ t.b = s.b))
          ∧ (sv = 2 → t.moor.newG = s.moor.newG ||| g ∧ t.moor.newM = s.moor.newM ∧ t.a.mooring = s.a.mooring
              ∧ t.b.mooring = s.b.mooring)
          ∧ (sv = 3 → t.moor.newM = true ∧ (t.die d).mooring = true
              ∧ (match d with
                | .A => t.moor.toB = true
                | .B => t.moor.toA = true))))
    ∧ (∀ site : UeSite,
        (∀ d a, ueSource s site = .inl (d, a) →
          let src := match d with
            | .A => if workBase ≤ a ∧ a < workBase + 2 ^ 18 then 22 else if instrBase ≤ a then 21 else 20
            | .B => (rowSource s .B a).1
          (rowExists d a = false ∨ s.runs d = false → exec (.uncorrectableWord site) s = .next s)
          ∧ (rowExists d a = true → s.runs d = true → ∃ t s1, exec (.uncorrectableWord site) s = .next t
              ∧ s1 = { s with rows := s1.rows } ∧ s1.rowBad d a = true
              ∧ (∀ k, k ≠ rowKey d a → cellGet 0 s1.rows k = cellGet 0 s.rows k) ∧ Reacts s1 t ∧ t.fired src = true))
        ∧ (∀ x, ueSource s site = .inr x → ∃ t, exec (.uncorrectableWord site) s = .next t ∧ Fires s t (match site with
            | .fpeBuffer n => 55 + 8 * n.val
            | .mgpBuffer => 93
            | _ => 143)))
    ∧ (∀ a, (rowSource s .B a).1 = 36 ∨ (rowSource s .B a).1 = 37) ∧ (∀ p, p < 2 ^ 18 → (rowSource s .B p).1 = 37)
    ∧ (∀ d : Die,
        let due := match d with
          | .A => s.moor.toA
          | .B => s.moor.toB
        (due = false → exec (.moorSignalReceived d) s = .next s)
        ∧ (due = true → ∃ t, exec (.moorSignalReceived d) s = .next t ∧ Reacts s t
            ∧ (s.runs d = true → (t.die d).mooring = true)
            ∧ (match d with
              | .A => t.moor.toA = false
              | .B => t.moor.toB = false)))
    ∧ ∀ b : Fin 18,
        let d : Die := if b = 3 then .B else .A
        (s.runs d = false → exec (.registerParityFault b) s = .next s)
        ∧ (s.runs d = true → ∃ t s1, exec (.registerParityFault b) s = .next t
            ∧ s1 = { s with ev := s1.ev, evb := s1.evb } ∧ (∀ c : Fin 18, c ≠ b → s1.evOf c.val = s.evOf c.val) ∧ Reacts s1 t
            ∧ (t.evOf b.val).parerr = true ∧ ((s.evOf b.val).fSrc = 0o377 → (t.evOf b.val).fSrc = 0o376)
            ∧ (t.die d).mooring = true ∧ t.moor.newM = true
            ∧ (if b = 3 then t.moor.toA = true ∧ t.fired 43 = true else t.moor.toB = true))

/-- Settling of a unit ends once its settle time has run; a block that leaves reset in order is empty, has no session and
no partial message and stands at its reset values, a port engine's counters apart, and one that fails its self-check fires
the source that reset it again (R13, R237, R328, R401). -/
def Obligations.SettlingAndBlockResetsEnd : Prop :=
  ∀ (s : State) (u : RstUnit), Shaped s →
    (∃ t, exec (.settleEnd u) s = .next t ∧ t = { s with settle := t.settle }
      ∧ ∀ x, x ∈ t.settle ↔ x ∈ s.settle ∧ (x.1 ≠ u ∨ reached s.now x.2 = false))
    ∧ (s.unitDown u = false → ∀ ok, exec (.blockResetEnd u ok) s = .next s)
    ∧ (s.unitDown u = true → ∃ t, exec (.blockResetEnd u true) s = .next t ∧ t.unitDown u = false
        ∧ (∀ v, v ≠ u → t.unitDown v = s.unitDown v)
        ∧ (match u with
          | .fpe n => t = { s with resets := t.resets, ports := t.ports, intake := { s.intake with asm := t.intake.asm } }
              ∧ (∀ x, x ∈ t.intake.asm ↔ x ∈ s.intake.asm ∧ ∀ w, x.src ≠ .field n w)
              ∧ (let p := s.port n.val
                t.port n.val = { late := p.late, oot := p.oot, siga := p.siga, sigb := p.sigb, sigbLive := p.sigbLive,
                                 hdr := p.hdr, dup := p.dup, cdiv := p.cdiv, tdiv := p.tdiv, txc := p.txc, txNow := p.txNow })
              ∧ ∀ m, m ≠ n.val → t.port m = s.port m
          | .svc => (∀ k : Fin 8, t.ses k.val = none) ∧ ∃ s1, s1 = endSessions s (fun _ => true) ∧ Reacts s s1
              ∧ t = { s1 with
                resets := t.resets, intake := { s.intake with asm := [] },
                svc := { s1.svc with
                  txoff := 0, txlen := 0, rxbase := 0, rxsize := 0, rxhead := 0, rxtail := 0, busy := false,
                  rxovr := false, txerr := false, inbox := [], outQ := [], frags := [], ringIn := [] } }
          | _ => t = { s with resets := t.resets }))
    ∧ (s.unitDown u = true → ∃ t, exec (.blockResetEnd u false) s = .next t ∧ Reacts s t
        ∧ (s.runs .A = true → t.fired (match u with
          | .fpe n => 55 + 8 * n.val
          | .mgp => 93
          | .svc => 143
          | .pws .A => 132
          | .pws .B => 133) = true))

/-- An accepted CLEAR clears the sources it names and no other, is refused whole where the cause of one persists and
always for EVB; the B-die clears what its detectors have not found for 64 tides (R309, R324, R333, R334). A permitted
severity waits for the next boundary, any other write is ignored; a read of FIRST latches its stamps, and a read of NUM_L
or CNUM_L latches bits 35:18 (R75, R182, R316, R318). -/
def Obligations.SourcesClearAndRegistersTakeWrites : Prop :=
  (∀ (s : State) (b : Fin 18) (bits found : BitVec 16), Shaped s →
    ((s.runs .A = false ∨ b = 3 ∨ ∃ j : Fin 16, j.val < Config.countOf b.val ∧ bits.getLsbD j.val = true
          ∧ causePersists s b.val j.val found = true) →
        exec (.eventClear b bits found) s = .next s)
    ∧ (s.runs .A = true → b ≠ 3 →
        (∀ j : Fin 16, j.val < Config.countOf b.val → bits.getLsbD j.val = true → causePersists s b.val j.val found = false) →
        ∃ t, exec (.eventClear b bits found) s = .next t
          ∧ (∀ c : Fin 18, (t.evOf c.val).src = if c = b then (s.evOf b.val).src &&& ~~~ bits else (s.evOf c.val).src)
          ∧ ((t.evOf b.val).src = 0 → (t.evOf b.val).fSrc = 0o377)
          ∧ t = { s with ev := t.ev, rcd := t.rcd, lio := t.lio,
                         moor := { s.moor with gSrc := t.moor.gSrc, mSrc := t.moor.mSrc } })
    ∧ (s.runs .B = false → exec (.evbSelfClear found) s = .next s)
    ∧ (s.runs .B = true → ∃ t, exec (.evbSelfClear found) s = .next t
        ∧ (∀ j : Fin 16, t.evb.src.getLsbD j.val = (s.evb.src.getLsbD j.val && !(!found.getLsbD j.val
            && (s.evb.last.getD j.val none).any fun x => reached s.now (tideAdd x 65))))
        ∧ t = { s with evb := t.evb, rcd := t.rcd, moor := { s.moor with gSrc := t.moor.gSrc, mSrc := t.moor.mSrc } }))
  ∧ (∀ (s : State) (b : Fin 18) (hi : Bool) (v : Word), Shaped s →
    let w := if hi then v &&& 0o37777 else v
    (s.runs .A = false ∨ b = 1 ∨ b = 3 ∨ sevWordAllowed b.val hi w = false → exec (.severityWrite b hi v) s = .next s)
    ∧ (s.runs .A = true → b ≠ 1 → b ≠ 3 → sevWordAllowed b.val hi w = true → ∃ t, exec (.severityWrite b hi v) s = .next t
        ∧ t.evOf b.val = (if hi then { s.evOf b.val with nextH := some w } else { s.evOf b.val with nextL := some w })
        ∧ (∀ c : Fin 18, c ≠ b → t.evOf c.val = s.evOf c.val) ∧ t = { s with ev := t.ev })
    ∧ (∃ t, exec (.eventFirstRead b) s = .next t
        ∧ t.core = { s.core with busData := (s.shown b.val).firstWord, busErr := false }
        ∧ t.shown b.val = { s.shown b.val with snapTide := (s.shown b.val).fTide, snapTick := (s.shown b.val).fTick }
        ∧ (∀ c : Fin 18, c ≠ b → t.shown c.val = s.shown c.val) ∧ t = { s with ev := t.ev, core := t.core })
    ∧ exec (.tideNumRead false) s = .next { s with
        tide := { s.tide with snapNum := BitVec.ofNat 18 (s.tide.num.toNat / 2 ^ 18) },
        core := { s.core with busData := BitVec.ofNat 18 (s.tide.num.toNat % 2 ^ 18), busErr := false } }
    ∧ exec (.tideNumRead true) s = .next { s with
        tide := { s.tide with snapCnum := BitVec.ofNat 18 (s.tide.cnum.toNat / 2 ^ 18) },
        core := { s.core with busData := BitVec.ofNat 18 (s.tide.cnum.toNat % 2 ^ 18), busErr := false } })

/-- A lane that goes down leaves UP, its cage says whether a transceiver is there, and the lane's source fires where it
was up; a lane that comes up is up and present, on a port only outside a reset of its engine. Nothing else changes; a loss
of port M's link fires source 90 (R207, R265, R322). -/
def Obligations.LanesGoDownAndComeUp : Prop :=
  ∀ (s : State) (p : Fin 4) (l : Lane) (present : Bool), Shaped s →
    (s.runs .A = false → exec (.laneDown p l present) s = .next s ∧ exec (.laneUp p l) s = .next s
        ∧ exec (.hawserLinkDown l present) s = .next s ∧ exec (.hawserLinkUp l) s = .next s)
    ∧ (s.unitDown (.fpe p) = true → exec (.laneUp p l) s = .next s)
    ∧ (s.runs .A = true →
        (∃ t s1, exec (.laneDown p l present) s = .next t
          ∧ s1 = { s with ports := s1.ports } ∧ (∀ q : Fin 4, q ≠ p → s1.port q.val = s.port q.val)
          ∧ s1.port p.val = (match l with
              | .A => { s.port p.val with upA := false, presA := present }
              | .B => { s.port p.val with upB := false, presB := present })
          ∧ FiresIf ((s.port p.val).up l) s1 t (48 + 8 * p.val + (match l with
              | .A => 0
              | .B => 1)))
        ∧ (s.unitDown (.fpe p) = false → ∃ t, exec (.laneUp p l) s = .next t
          ∧ t = { s with ports := t.ports } ∧ (∀ q : Fin 4, q ≠ p → t.port q.val = s.port q.val)
          ∧ t.port p.val = (match l with
              | .A => { s.port p.val with upA := true, presA := true }
              | .B => { s.port p.val with upB := true, presB := true }))
        ∧ (∃ t s1, exec (.hawserLinkDown l present) s = .next t
          ∧ s1 = { s with twin := (match l with
              | .A => { s.twin with upA := false, presA := present }
              | .B => { s.twin with upB := false, presB := present }) }
          ∧ FiresIf (s.twin.up l) s1 t (match l with
              | .A => 80
              | .B => 81))
        ∧ exec (.hawserLinkUp l) s = .next { s with twin := (match l with
              | .A => { s.twin with upA := true, presA := true }
              | .B => { s.twin with upB := true, presB := true }) })
    ∧ ∃ t, exec .mgpLinkLoss s = .next t ∧ Fires s t 90

/-- On the field lanes that are up, outside the guard phase and a reset of their engine, a running module that no fault
has moored sends Sync at logSyncInterval -4 and Announce at 0 with time-out 3, the priority1 of its role and clockClass
248, and answers a delay request on its lane; each leaves under EtherType 0x88F7 and PCP 7, on the ARB timescale, with the
domain of the Manifest and the PTP time, t times the period where tide t starts. A Leader sends Sync at -7 on the Hawser;
frames on lane A are counted. Nothing else changes. A Follower's offset from its Leader stands in TWOFF, where it fits its
signed 18 bits, and fires source 5 beyond 2 µs (R67, R69, R70, R75, R251). -/
def Obligations.PtpMessagesLeave : Prop :=
  ∀ (s : State), Shaped s →
    let head : PtpHead := { etherType := 0x88F7, pcp := 7, domain := s.netA.domain, arb := true, time := ptpTime s }
    (∀ (c : Instr) (m : Ptp) (ls : List (Fin 4 × Lane)),
        (c = .ptpSyncSend ∧ m = .sync (-4) ∧ ls = ptpLanes s
          ∨ c = .ptpAnnounceSend ∧ m = .announce 0 3 s.twin.role.priority1 248 ∧ ls = ptpLanes s
          ∨ ∃ p l i q, c = .ptpDelayReqReceived p l i q ∧ m = .delayResp i q
              ∧ ls = if (p, l) ∈ ptpLanes s then [(p, l)] else []) →
        ∃ t, exec c s = .next t ∧ t = { s with ports := t.ports, tx := t.tx }
          ∧ t.tx = s.tx ++ ls.map (fun x => Tx.ptp (.field x.1 x.2) head m)
          ∧ ∀ p : Fin 4, t.port p.val = if (p, Lane.A) ∈ ls then { s.port p.val with txNow := sat18 (s.port p.val).txNow }
              else s.port p.val)
    ∧ (∀ (p : Fin 4) (l : Lane), (p, l) ∈ ptpLanes s ↔ s.tide.ph ≠ 5 ∧ s.runs .A = true ∧ s.stopsSending = false
          ∧ (s.mode = .translate ∨ s.mode = .enrol ∨ s.mode = .live) ∧ (s.port p.val).up l = true
          ∧ s.unitDown (.fpe p) = false)
    ∧ (s.tide.tick = 0 → ptpTime s = s.now.toNat * s.per * 1000000)
    ∧ [Role.solo, .leader, .follower, .isoSending, .isoSilent, .resync].map Role.priority1 = [64, 64, 128, 250, 250, 255]
    ∧ (s.twin.role = .leader → ptpRuns s = true → s.tide.ph ≠ 5 →
        exec .hawserSyncSend s = .next { s with
          tx := s.tx ++ ([Lane.A, Lane.B].filter s.twin.up).map fun l => Tx.ptp (.hawser l) head (.sync (-7)) })
    ∧ (s.twin.role ≠ .leader ∨ ptpRuns s = false ∨ s.tide.ph = 5 → exec .hawserSyncSend s = .next s)
    ∧ ∀ off : Int,
        (s.runs .A = true → s.twin.role = .follower → ∃ t w, exec (.hawserSyncReceived off) s = .next t
          ∧ (-131072 ≤ off → off ≤ 131071 → w = BitVec.ofInt 18 off)
          ∧ FiresIf (decide (250 < off.natAbs)) { s with tide := { s.tide with twoff := w } } t 5)
        ∧ (s.runs .A = false ∨ s.twin.role ≠ .follower → exec (.hawserSyncReceived off) s = .next s)

/-- Cells of a row flip one by one. In the mirroring and guard phases a die's scrubber reads 1,024 words from its place in
each of its memories and goes on by as many: a row with one flipped cell is written back, an uncorrectable one stays and
its source fires, no other row changes; on the B-die more than 64 corrected words within 4,096 tides fire source 46. The
driver opens a Bell relay only where a Bell has made no edge, both hold one level or no tide runs, and it starts anew. In
the guard phase, with both dies running, the A-die's EVB, FUSB and SIGB windows take what the B-die holds (R20, R21, R183,
R237, R309, R322, R332). -/
def Obligations.ScrubbingRelayAndMirror : Prop :=
  ∀ (s : State), Shaped s → StoresWf s →
    (∀ (d : Die) (a : Nat) (m : BitVec 24), rowExists d a = true → ∀ x, cellGet 0 (s.rowFlip d a m).rows x =
        if x = rowKey d a then s.rowMask d a ^^^ m else cellGet 0 s.rows x)
    ∧ (∀ (d : Die) (flips : List (BitVec 24 × BitVec 24)),
        let s0 := flips.foldl (fun u f => u.rowFlip d f.1.toNat f.2) s
        let hit (x : Nat) : Bool := (scrubFrom s.scrub d).any fun a => rowKey d a ≤ x && x < rowKey d (a + 1024)
        (s.runs d = false ∨ (s.tide.ph ≠ 3 ∧ s.tide.ph ≠ 5) → exec (.scrub d flips) s = .next s)
        ∧ (s.runs d = true → s.tide.ph = 3 ∨ s.tide.ph = 5 → ∃ t, exec (.scrub d flips) s = .next t
            ∧ (∀ x, cellGet 0 t.rows x = if hit x && !maskBad (cellGet 0 s0.rows x) then 0 else cellGet 0 s0.rows x)
            ∧ (∀ x, hit x = true → maskBad (cellGet 0 s0.rows x) = true →
                t.fired (rowSource s d (x - rowKey d 0)).1 = true)
            ∧ Reacts { s with scrub := t.scrub, rows := t.rows } t
            ∧ (match d with
              | .A => t.scrub = { s.scrub with
                  data := (s.scrub.data + 1024) % 4194304, instr := (s.scrub.instr + 1024) % 262144,
                  declA := (s.scrub.declA + 1024) % 1048576 }
              | .B =>
                let n := scrubFixes s0
                let ce := s.scrub.ce.filter (fun x => later (tideAdd x.1 4096) s.now) ++ (if n = 0 then [] else [(s.now, n)])
                t.scrub = { s.scrub with
                  table := (s.scrub.table + 1024) % 4194304, declB := (s.scrub.declB + 1024) % 1048576, ce := ce }
                ∧ (64 < (ce.map Prod.snd).sum → n ≠ 0 → t.fired 46 = true))))
    ∧ (s.bells.relay = false ∨ (s.tide.running = true ∧ s.bells.edgeA = true ∧ s.bells.edgeB = true
          ∧ s.a.bell ≠ s.b.bell) → exec .bellRelayRelease s = .next s)
    ∧ (s.bells.relay = true → s.tide.running = false ∨ s.bells.edgeA = false ∨ s.bells.edgeB = false
          ∨ s.a.bell = s.b.bell → ∃ t, exec .bellRelayRelease s = .next t
        ∧ t = { s with
            bells := { s.bells with relay := false, bcon := false, edgesA := 0, edgesB := 0 },
            tide := { s.tide with tick := t.tide.tick } }
        ∧ t.tide.tick.toNat = if s.tide.running then max s.tide.tick.toNat (Config.tickAt 500).toNat else s.tide.tick.toNat)
    ∧ (s.tide.ph ≠ 5 ∨ s.runs .A = false ∨ s.runs .B = false → exec .bStatusMirror s = .next s)
    ∧ (s.tide.ph = 5 → s.runs .A = true → s.runs .B = true → ∃ t, exec .bStatusMirror s = .next t
        ∧ t.shown 3 = { s.evb with snapTide := (s.shown 3).snapTide, snapTick := (s.shown 3).snapTick }
        ∧ (∀ c : Fin 18, c ≠ 3 → t.shown c.val = s.shown c.val)
        ∧ (∀ r : Fin 32, t.evbRegs.getD (r.val + 1) 0 = s.fus.b.used.reg r.val) ∧ t.evbRegs.getD 0 0 = fusStat s .B
        ∧ (∀ p : Fin 4, t.port p.val = { s.port p.val with sigb := (s.port p.val).sigbLive })
        ∧ t = { s with ev := t.ev, evbRegs := t.evbRegs, ports := t.ports })

/-- A rail out of tolerance puts its die into reset: the die's registers and memories at their reset values, its overrides
gone, the burn it makes cut off, its commands removed, and the other die's state as it was; on the B-die the frames its
taps keep are gone too. Once the rail is back the A-die starts in Fuse read and the B-die leaves reset without a Manifest;
a B-die not sensed before senses its fuses, without an identity the module halts, and what sensing finds fires EVB 47. A
die in reset already stays in it (R13, R26, R106, R183, R368, R369, R374). -/
def Obligations.IslandSupervisorsHoldDies : Prop :=
  ∀ (s : State) (d : Die), Shaped s →
    let on : State := setRail s d true
    let off : State := setRail s d false
    on.rail d = true ∧ off.rail d = false ∧ on.rail (Die.other d) = s.rail (Die.other d)
    ∧ (s.runs d = false → exec (.islandRailFault d) s = .next on)
    ∧ (s.runs .A = true → ∃ t, exec (.islandRailFault .A) s = .next t
        ∧ t = { State.reset with
            pending := s.pending, b := s.b, evb := s.evb, norA := s.norA, norB := s.norB, tx := s.tx,
            draws := (burnCut s).draws, rows := cellErase s.rows 0 (2 ^ 24),
            lio := { cmdB := s.lio.cmdB, wantB := s.lio.wantB, inB := s.lio.inB, rbB := s.lio.rbB },
            fus := { a := { (burnCut s).fus.a with ovr := [], ovrNext := [], ovrClear := false, pos := 0, resense := false },
                     b := (burnCut s).fus.b },
            rcd := s.rcd.kept, pws := { s.pws with released := true, railA := true },
            bells := { s.bells with edgesA := 0, edgesB := 0, edgeA := false, edgeB := false } }
        ∧ t.runs .A = false)
    ∧ (s.runs .B = true → ∃ t, exec (.islandRailFault .B) s = .next t
        ∧ (let cut : State := if s.fus.burn.any (fun x => x.die = .B) then burnCut s else s
          t = { s with
            b := {}, evb := EvBlock.initial 3, ab := [], intake := t.intake, svc := t.svc, draws := cut.draws,
            rows := cellErase s.rows (2 ^ 24) (2 ^ 25),
            lio := { s.lio with cmdB := 0, wantB := 0, switching := List.replicate 16 10 },
            fus := { cut.fus with
              b := { cut.fus.b with ovr := [], ovrNext := [], ovrClear := false, pos := 0, resense := false } },
            bells := { s.bells with edgesB := 0, edgeB := false }, pws := { s.pws with railB := true } })
        ∧ t.intake = { s.intake with
            landedSvc := s.intake.landedSvc.map fun c => { c with tap := none }, asm := t.intake.asm }
        ∧ t.intake.asm = s.intake.asm.map (fun x => { x with parts := x.parts.map fun p => (p.1, p.2.1, none) })
        ∧ t.svc = { s.svc with inbox := s.svc.inbox.map (fun m => { m with tap := none }), ses := t.svc.ses }
        ∧ (∀ k r : Nat, t.slot k r = (s.slot k r).map fun x => { x with tap := none })
        ∧ (∀ k : Nat, (t.ses k).map (fun x => { x with slots := [] }) = (s.ses k).map (fun x => { x with slots := [] }))
        ∧ t.runs .B = false)
    ∧ (s.rail d = false ∨ s.pws.released = false → exec (.islandRailRestored d) s = .next off)
    ∧ (s.rail .A = true → s.pws.released = true → exec (.islandRailRestored .A) s = .next { s with
        mode := .fuseRead, a := { s.a with inReset := false }, pws := { s.pws with railA := false } })
    ∧ (s.rail .B = true → s.pws.released = true →
        let s1 : State := { s with b := { s.b with inReset := false }, pws := { s.pws with railB := false } }
        let f := s.fus.b.sense
        (s.fus.b.sensed = true ∨ s.mode = .fuseRead ∨ s.mode = .off → exec (.islandRailRestored .B) s = .next s1)
        ∧ (s.fus.b.sensed = false → s.mode ≠ .fuseRead → s.mode ≠ .off → ∃ t, exec (.islandRailRestored .B) s = .next t
            ∧ FiresIf (!f.weak.isEmpty || f.latched.copiesDiffer || f.latched.spareUsed || f.latched.unresolved)
                { s1 with
                  fus := { s.fus with b := f }, mode := if f.latched.identity .B then s.mode else .halted } t 47))

/-- The oldest landed SERVICE frame joins the message of its source and tag; once every fragment is there the whole
message goes to the service, as a datagram that is no IP fragment does, together with what the B-die's tap keeps of the
frames. A Hawser frame that either die's checks refuse, or whose number was accepted before, changes nothing; of a peer's
messages the types that only a module sends go to the partition's ring. Messages not complete within 64 tides go (R106,
R224, R226, R246, R274, R359). -/
def Obligations.ServiceFramesAssemble : Prop :=
  ∀ (s : State),
    let joined (u : State) (src : Client) (p : Octets) (tap : Option Tap) : State :=
      let old := (u.intake.asm.find? fun x => x.isFor src (p.getD 1 0)).getD
        { src := src, tag := p.getD 1 0, since := u.now, parts := [], last := none }
      let x := old.put (field p 0 1 % 128) (bitOf (field p 0 1) 7) (p.drop 2)
        (tap.map fun t => { t with octets := t.octets.drop 2 })
      let others := u.intake.asm.filter fun y => !y.isFor src (p.getD 1 0)
      if p.length < 2 then u
      else match x.message with
        | none => { u with intake := { u.intake with asm := others ++ [x] } }
        | some m => messageIn { u with intake := { u.intake with asm := others } } src m.1 m.2
    (s.intake.landedSvc = [] → exec (.serviceFrameReceived .landed) s = .next s)
    ∧ (∀ (c : RxCopy) (cs : List RxCopy), s.intake.landedSvc = c :: cs →
        exec (.serviceFrameReceived .landed) s = .next (joined { s with intake := { s.intake with landedSvc := cs } }
          (.field c.port c.f.src) c.f.payload c.tap))
    ∧ (∀ (x : Assembly) (m : Octets), (∃ tap, x.message = some (m, tap)) ↔ ∃ n, x.last = some n
        ∧ (∀ k, k ≤ n → ∃ q ∈ x.parts, q.1 = k)
        ∧ m = (List.range (n + 1)).flatMap fun k => ((x.parts.find? fun q => q.1 = k).map fun q => q.2.1).getD [])
    ∧ (∀ (x : Assembly) (m : Octets) (tap : Tap), x.message = some (m, some tap) → ∃ n, x.last = some n
        ∧ (∀ k, k ≤ n → ∃ q, x.parts.find? (fun q => q.1 = k) = some q ∧ q.2.2.isSome = true)
        ∧ tap.octets = (List.range (n + 1)).flatMap fun k =>
            ((x.parts.find? fun q => q.1 = k).bind fun q => q.2.2.map Tap.octets).getD [])
    ∧ (∀ (u : State) (c : Client) (m : Octets) (tap : Option Tap),
        let alone := (∃ unit, c = .peer unit) ∧ toRing m = true
        (¬ alone → messageIn u c m tap = receive u c m tap)
        ∧ (alone → u.unitDown .svc = true → messageIn u c m tap = u)
        ∧ (alone → u.unitDown .svc = false →
            messageIn u c m tap = { u with svc := { u.svc with ringIn := u.svc.ringIn ++ [(true, m)] } }))
    ∧ (∀ (l : Lane) (fa fb : Octets),
        (hawserCopies s l 2 210 s.salt fa fb = none → exec (.serviceFrameReceived (.hawser l fa fb)) s = .next s)
        ∧ (∀ f g, hawserCopies s l 2 210 s.salt fa fb = some (f, g) →
            lstParse s.netA.vid s.netA.etype 210 fa = some f ∧ f.kind = 2 ∧ f.lane = l ∧ f.src = s.netA.zone
            ∧ f.dst = s.netA.zone ∧ sigHolds .A s.salt f = true
            ∧ lstParse s.netB.vid s.netB.etype 210 fb = some g ∧ g.kind = 2 ∧ g.lane = l ∧ sigHolds .B s.salt g = true
            ∧ (dupTake s.twin.hbWins f = none → exec (.serviceFrameReceived (.hawser l fa fb)) s = .next s)
            ∧ (∀ ws, dupTake s.twin.hbWins f = some ws → exec (.serviceFrameReceived (.hawser l fa fb)) s
                = .next (joined { s with twin := { s.twin with hbWins := ws } } (.peer f.unit) f.payload
                    (some { since := s.now, octets := g.payload })))))
    ∧ (∀ (ip : BitVec 128) (port : BitVec 16) (copies : DieCopies),
        exec (.udpDatagramReceived ip port true copies) s = .next s
        ∧ exec (.udpDatagramReceived ip port false copies) s = .next (receive s (.udp ip port) copies.a
            (if s.runs .B then some { since := s.now, octets := copies.b } else none)))
    ∧ ∃ t, exec .serviceReassemblyTimeout s = .next t
        ∧ (∀ x, x ∈ t.intake.asm ↔ x ∈ s.intake.asm ∧ reached s.now (tideAdd x.since 64) = false)
        ∧ t = { s with intake := { s.intake with asm := t.intake.asm } }

/-- A message that the service does not take, or of a wrong form, changes nothing. An authentic OPEN that names no session
and bears a nonce waits, and one that does not is dropped; a message of its session's own client, at its level, with the
session's MAC and a fresh counter is accepted, a REQUEST or CLOSE among them waits, and a REQUEST of the Helm holder
renews the lease. Every other message, of any type, counts in AUTH_FAIL and fires source 142 (R274 to R279, R292). -/
def Obligations.MessagesAreAuthenticated : Prop :=
  ∀ (s : State) (c : Client) (m : Octets) (tap : Option Tap), Shaped s →
    let x := msgOf c m
    let r := receive s c m tap
    let fails : State := { s with svc := { s.svc with authFail := s.svc.authFail + 1 } }
    (serviceUp s c = false ∨ msgForm m = false → r = s)
    ∧ (serviceUp s c = true → msgForm m = true →
      (x.typ = 0 →
          (s.key x.level.toNat = none → Fires fails r 142)
          ∧ ∀ key, s.key x.level.toNat = some key →
            let authentic := decide (x.cnt = 0) && macPasses key x.body (List.replicate 8 0) m
            (authentic = false → Fires fails r 142)
            ∧ (authentic = true → x.ses ≠ some 0 ∨ x.body.length ≠ 8 → r = s)
            ∧ (authentic = true → x.ses = some 0 → x.body.length = 8 →
              r = { s with svc := { s.svc with inbox := s.svc.inbox ++ [{ x with ses := none, tap := tap }] } }))
      ∧ (∀ k : Fin 8, x.typ ≠ 0 → x.ses = some k →
          (s.ses k.val = none → Fires fails r 142)
          ∧ ∀ y, s.ses k.val = some y →
            let own := decide (y.client = c) && decide (y.level = x.level)
              && macPasses ((s.key y.level.toNat).getD []) (be 8 y.nc.toNat) (be 8 y.nm.toNat) m
            (own = false ∨ winTake y.rxHigh y.rxSeen x.cnt = none → Fires fails r 142)
            ∧ (∀ w, own = true → winTake y.rxHigh y.rxSeen x.cnt = some w →
                (x.typ = 5 ∨ x.cnt ≠ 0xFFFFFFFF →
                  r.ses k.val = some { y with rxHigh := w.1, rxSeen := w.2, last := s.now }
                  ∧ (∀ j : Fin 8, j ≠ k → r.ses j.val = s.ses j.val)
                  ∧ r.svc.inbox = (if x.typ = 2 ∨ x.typ = 5 then s.svc.inbox ++ [{ x with tap := tap }] else s.svc.inbox)
                  ∧ r.svc.helm = (if x.typ = 2 ∧ s.svc.helm.holder = some k then
                      { s.svc.helm with leaseEnd := tideAdd s.now s.leaseTides } else s.svc.helm)
                  ∧ r = { s with svc := { s.svc with ses := r.svc.ses, inbox := r.svc.inbox, helm := r.svc.helm } })
                ∧ (x.typ ≠ 5 → x.cnt = 0xFFFFFFFF → r.ses k.val = none))))

/-- An ENROL command acts on the oldest landed frame of its OP, which is then gone. A REQUEST stores type and serial, and
an enrolled node that sends one loses its enrolment; a wrong type fires ENROL_FAIL and gets no offer, the right one an
offer. An ACCEPT that echoes the offer enrols the node from the tide after the next; a REFUSE fires ENROL_FAIL and turns
to slow offering (R228 to R231, R233). -/
def Obligations.EnrolFramesAct : Prop :=
  ∀ (s : State), Shaped s →
    (∀ (op : Nat) (cmd : Instr), (op, cmd) ∈ [(0, Instr.enrolRequest), (2, .enrolAccept), (3, .enrolRefuse)] →
        (∀ x ∈ s.intake.landedEnrol, field x.f.payload 0 1 ≠ op) → exec cmd s = .next s)
    ∧ ∀ (front back : List RxCopy) (c : RxCopy), s.intake.landedEnrol = front ++ c :: back →
        (∀ x ∈ front, field x.f.payload 0 1 ≠ field c.f.payload 0 1) →
        let op := field c.f.payload 0 1
        let s1 : State := { s with intake := { s.intake with landedEnrol := front ++ back } }
        let n := c.f.src.toNat
        let p := c.f.payload
        let x := s.nodes.getD n {}
        let y := { x with typ := BitVec.ofNat 32 (field p 3 4), serial := BitVec.ofNat 48 (field p 7 6) }
        (op = 0 → enrolForm s 0 c = false → exec .enrolRequest s = .next s1)
        ∧ (op = 0 → enrolForm s 0 c = true → field p 3 4 ≠ s.netA.nodeType n →
            ∃ t s2, exec .enrolRequest s = .next t
              ∧ NodeBecomes s1 s2 n { y with enrolled := false, enrolAt := none, wantOffer := false }
              ∧ Fires s2 t (54 + 8 * s.netA.nodePort n))
        ∧ (op = 0 → enrolForm s 0 c = true → field p 3 4 = s.netA.nodeType n →
            ∃ t, exec .enrolRequest s = .next t ∧ NodeBecomes s1 t n
              (if x.enrolled || x.enrolAt.isSome then
                { y with enrolled := false, enrolAt := none, wantOffer := true, unanswered := 0, slow := false,
                         waiting := false, offerAt := none }
              else if x.slow || x.waiting then y else { y with wantOffer := true }))
        ∧ (op = 2 → enrolForm s 2 c && acceptHolds s n p = false → exec .enrolAccept s = .next s1)
        ∧ (op = 2 → enrolForm s 2 c && acceptHolds s n p = true → ∃ t, exec .enrolAccept s = .next t
            ∧ NodeBecomes s1 t n { x with
                enrolAt := some (tideAdd s.now 1), typ := BitVec.ofNat 32 (field p 11 4),
                serial := BitVec.ofNat 48 (field p 15 6), unanswered := 0, slow := false, waiting := false,
                wantOffer := false, offerAt := none })
        ∧ (op = 3 → enrolForm s 3 c = false → exec .enrolRefuse s = .next s1)
        ∧ (op = 3 → enrolForm s 3 c = true → ∃ t s2, exec .enrolRefuse s = .next t
            ∧ NodeBecomes s1 s2 n { x with slow := true, waiting := false, wantOffer := false }
            ∧ Fires s2 t (54 + 8 * s.netA.nodePort n))

/-- Sixteen tides after an unanswered offer another is wanted; after the fourth, and in slow offering, ENROL_FAIL fires
and offers come slowly, 256 tides after the one before where there was one. Enrol ends at the boundary by which every node
is enrolled, or after 1,024 tides; each node that is not is recorded (R230, R232). -/
def Obligations.OffersTimeOutAndEnrolEnds : Prop :=
  ∀ (s : State) (n : Fin 8192), Shaped s →
    let x := s.nodes.getD n.val {}
    let due := s.armedMode && x.waiting && offerAge s n.val 16
    (due = false → exec (.offerTimeout n) s = .next s)
    ∧ (due = true → x.slow = false → x.unanswered < 3 → ∃ t, exec (.offerTimeout n) s = .next t
        ∧ NodeBecomes s t n.val { x with waiting := false, unanswered := x.unanswered + 1, wantOffer := true })
    ∧ (due = true → x.slow = true ∨ 3 ≤ x.unanswered → ∃ t s2, exec (.offerTimeout n) s = .next t
        ∧ NodeBecomes s s2 n.val { x with
            waiting := false, unanswered := if x.slow then x.unanswered else 4, slow := true }
        ∧ Fires s2 t (54 + 8 * s.netA.nodePort n.val))
    ∧ (let slow := s.armedMode && x.slow && !x.enrolled && (x.offerAt.isNone || offerAge s n.val 256)
      (slow = false → exec (.slowOffer n) s = .next s)
      ∧ (slow = true → ∃ t, exec (.slowOffer n) s = .next t
        ∧ NodeBecomes s t n.val { x with wantOffer := true, waiting := false }))
    ∧ (let all := ∀ k, k < s.nodes.length → enrolledNext s k = true
       let ends := all ∨ reached (tideAdd s.now 1) (tideAdd s.enrol.since 1024) = true
       (s.mode ≠ .enrol ∨ s.start.modeNext ≠ none ∨ ¬ ends → exec .enrolEnd s = .next s)
       ∧ (s.mode = .enrol → s.start.modeNext = none → ends → ∃ t, exec .enrolEnd s = .next t
          ∧ t.start = { s.start with modeNext := some .live }
          ∧ (all → t.rcd = s.rcd)
          ∧ t = { s with start := t.start, rcd := { s.rcd with queue := t.rcd.queue, latest := t.rcd.latest } }))

/-- OPEN completes: it answers the oldest waiting OPEN, with REJECT 0x02 before the end of Self-test, with REJECT 0x01
where all eight numbers are taken, otherwise with OPEN_ACK under a number that was free, fresh counters and a fresh nonce,
and the OPEN waits no more. Without a waiting OPEN, and while SVC is in reset, nothing changes (R274, R278, R328). -/
def Obligations.SessionsOpen : Prop :=
  ∀ (s : State), Shaped s →
    ((∀ m ∈ s.svc.inbox, m.typ ≠ 0) ∨ s.unitDown .svc = true → exec .sessOpen s = .next s)
    ∧ ∀ (front back : List InMsg) (m : InMsg), s.svc.inbox = front ++ m :: back → m.typ = 0 → (∀ x ∈ front, x.typ ≠ 0) →
      s.unitDown .svc = false →
      let s1 : State := { s with svc := { s.svc with inbox := front ++ back } }
      let key := (s.key m.level.toNat).getD []
      let nonce := be 8 (Config.entropy s.draws).toNat
      let rejected (why : Byte) : State :=
        svcOut s1 m.client (svcMessage key m.body (List.replicate 8 0) 6 0 m.level.toNat 0 [why]) none
      (s.mode = .fuseRead ∨ s.mode = .selfTest → exec .sessOpen s = .next (rejected 2))
      ∧ (s.mode ≠ .fuseRead → s.mode ≠ .selfTest → (∀ k : Fin 8, (s.ses k.val).isSome) → exec .sessOpen s = .next (rejected 1))
      ∧ (s.mode ≠ .fuseRead → s.mode ≠ .selfTest → (∃ k : Fin 8, s.ses k.val = none) →
          ∃ t s2, ∃ k : Fin 8, exec .sessOpen s = .next t ∧ s.ses k.val = none
            ∧ s2 = { s1 with draws := s.draws + 1, svc := { s1.svc with ses := s2.svc.ses } }
            ∧ (∀ j : Fin 8, j ≠ k → s2.ses j.val = s.ses j.val)
            ∧ s2.ses k.val = some {
                level := m.level, client := m.client, nc := BitVec.ofNat 64 (ofBe m.body), nm := Config.entropy s.draws, rxHigh := 0,
                rxSeen := 1, txCnt := 0, last := s.now, slots := List.replicate 16 none, subs := [], writes := [], notes := [],
                late := [] }
            ∧ t = svcOut s2 m.client (svcMessage key m.body nonce 1 k.val m.level.toNat 0
                (m.body ++ nonce ++ [BitVec.ofNat 8 (b2n s.unitBit)]
                  ++ be 3 (if s.loaded then s.netA.zone.toNat else 0))) none
            ∧ t.ses k.val = s2.ses k.val)

/-- CLOSE completes by ending the session of the oldest waiting CLOSE, and SESSION_TIMEOUT by ending one of which no
message has been accepted for 60 s: the session is gone, does not hold the Helm, and only what an answer may change has
changed. A seizing session gets the Helm of a holder that goes, and its request is done. Without a waiting CLOSE, without
the session, before the 60 s, nothing changes (R280, R292, R293). -/
def Obligations.SessionsEnd : Prop :=
  ∀ (s : State) (k : Fin 8), Shaped s →
    ((∀ m ∈ s.svc.inbox, m.typ ≠ 5) ∨ s.unitDown .svc = true → exec .sessClose s = .next s)
    ∧ (s.ses k.val = none → exec (.sessionTimeout k) s = .next s)
    ∧ ∀ x, s.ses k.val = some x →
      (reached s.now (tideAdd x.last (s.tides 60000)) = false → exec (.sessionTimeout k) s = .next s)
      ∧ (reached s.now (tideAdd x.last (s.tides 60000)) = true → ∃ t, exec (.sessionTimeout k) s = .next t ∧ Answers s t
          ∧ t.ses k.val = none ∧ t.svc.helm.holder ≠ some k
          ∧ (s.svc.helm.seizer = none → (∀ j : Fin 8, j ≠ k → t.ses j.val = s.ses j.val)
              ∧ t.svc.helm = if s.svc.helm.holder = some k then {} else s.svc.helm)
          ∧ ∀ z, s.svc.helm.seizer = some z → s.svc.helm.holder = some k → z ≠ k → s.lasts z = true →
              t.svc.helm.holder = some z ∧ ∀ sl, s.slot z.val s.svc.helm.seizeRid.toNat = some sl →
                ∃ sl1, t.slot z.val s.svc.helm.seizeRid.toNat = some sl1 ∧ sl1.st = .done ∧ sl1.req = sl.req)
      ∧ ∀ (front back : List InMsg) (m : InMsg), s.svc.inbox = front ++ m :: back → m.typ = 5 → m.ses = some k →
          (∀ y ∈ front, y.typ ≠ 5) → s.unitDown .svc = false → ∃ t, exec .sessClose s = .next t
            ∧ Answers { s with svc := { s.svc with inbox := front ++ back } } t ∧ t.ses k.val = none
            ∧ t.svc.helm.holder ≠ some k

/-- REQUEST handles the oldest waiting REQUEST while SVC runs. One shorter than 12 octets is discarded. A new one takes
its slot and waits, or completes with the lowest code of its form, 0x10 at most, where its OP is reserved; a repeat of an
outstanding one changes nothing, another one in the same slot is answered 0x0C and leaves it, and a repeat of a completed
one has its stored RESPONSE sent again (R281 to R284, R328). -/
def Obligations.RequestsTakeTheirSlots : Prop :=
  ∀ (s : State), Shaped s →
    ((∀ m ∈ s.svc.inbox, m.typ ≠ 2) ∨ s.unitDown .svc = true → exec .request s = .next s)
    ∧ ∀ (front back : List InMsg) (m : InMsg) (k : Fin 8) (x : Session), s.svc.inbox = front ++ m :: back → m.typ = 2 →
      (∀ y ∈ front, y.typ ≠ 2) → s.unitDown .svc = false → m.ses = some k → s.ses k.val = some x → x.slots.length = 16 → s.lasts k = true →
      let s1 : State := { s with svc := { s.svc with inbox := front ++ back } }
      let q := reqOf m.body
      let r : Fin 16 := ⟨q.rid.toNat, q.rid.isLt⟩
      let fresh := ∀ old, s.slot k.val r.val = some old → old.st = .done ∧ old.req.rn ≠ q.rn
      (m.body.length < 12 → exec .request s = .next s1)
      ∧ (12 ≤ m.body.length → fresh → q.op.toNat ≤ 6 → ∃ t, exec .request s = .next t
          ∧ t.ses k.val = some { x with
              slots := listMod x.slots r.val fun _ => some {
                req := q, cnt := m.cnt, st := .waiting, ift := s.now, resp := [], tap := m.tap } }
          ∧ (∀ j : Fin 8, j ≠ k → t.ses j.val = s.ses j.val) ∧ t = { s1 with svc := { s1.svc with ses := t.svc.ses } })
      ∧ (12 ≤ m.body.length → fresh → 6 < q.op.toNat → ∃ t, exec .request s = .next t ∧ Answers s1 t
          ∧ t.responds k r q (formStatus s q.entry.toNat q.index.toNat q.idx true) [])
      ∧ (∀ e i idx, (entOf e = none → formStatus s e i idx true = 1)
          ∧ (∀ y, entOf e = some y → formStatus s e i idx true =
              if idx = true ∧ ∃ n, y.idx = some n ∧ indexFits s e i n = false then 2 else 0x10))
      ∧ (∀ old, 12 ≤ m.body.length → s.slot k.val r.val = some old → old.st ≠ .done → old.req.rn = q.rn →
          exec .request s = .next s1)
      ∧ (∀ old, 12 ≤ m.body.length → s.slot k.val r.val = some old → old.st ≠ .done → old.req.rn ≠ q.rn →
          exec .request s = .next (sesSend s1 k 3 (respBody q 0x0C s.now s.now
            (if 3 ≤ q.op.toNat ∧ q.op.toNat ≤ 5 then helmVal s else []))))
      ∧ (∀ old, 12 ≤ m.body.length → s.slot k.val r.val = some old → old.st = .done → old.req.rn = q.rn →
          exec .request s = .next (sesSend s1 k 3 old.resp))
      ∧ ∀ (typ : Nat) (body : Octets), ∃ t, sesSend s1 k typ body = t ∧ Answers s1 t
          ∧ t.ses k.val = some { x with txCnt := x.txCnt + 1 } ∧ (∀ j : Fin 8, j ≠ k → t.ses j.val = s.ses j.val)
          ∧ t = svcOut { s1 with svc := { s1.svc with ses := t.svc.ses } } x.client
              (svcMessage ((s.key x.level.toNat).getD []) (be 8 x.nc.toNat) (be 8 x.nm.toNat) typ k.val x.level.toNat
                (x.txCnt + 1) body) (if typ = 4 then some k else none)

/-- A request executes only when it waits in its slot, no earlier fence of its session is outstanding, no earlier request
of it to the same entry and index waits, and, where it is itself a fence, no earlier one is outstanding and every earlier
write is in force; requests that have landed and wait for their slots count with the others. Its command otherwise changes
nothing (R286, R287). -/
def Obligations.RequestsWaitForTheirTurn : Prop :=
  ∀ (s : State) (k : Fin 8) (r : Fin 16),
    (∀ (op : Byte) (c : Instr), (op, c) ∈ [(0, Instr.read k r), (2, .fence k r), (3, .helmRequest k r),
        (4, .helmRelease k r), (5, .helmHandover k r), (6, .subscribe k r)] →
      readyOp s k r op = none → exec c s = .next s)
    ∧ (readyOp s k r 1 = none → ∀ c ∈ [Instr.write k r, .protectionWrite k r, .levelKeyWrite k r, .sessionClose k r,
        .moorCommandGroups k r, .moorCommandModule k r, .unmoorRequestGroups k r, .unmoorRequestModule k r,
        .softRestart k r, .benchEnter k r, .benchLeave k r, .partitionResume k r, .partitionSuspend k r,
        .tidePeriodWrite k r, .tideBudgetReportClear k r, .nodeReenrol k r, .eventSeverityEntry k r, .powerRetry k r,
        .standbyTestNow k r, .manifestStageOpen k r, .manifestStageClose k r, .manifestStageDiscard k r,
        .manifestCommit k r, .fuseOverride k r], exec c s = .next s)
    ∧ (∀ found, readyOp s k r 1 = none → exec (.eventClearEntry k r found) s = .next s)
    ∧ (∀ sa sb rb, readyOp s k r 1 = none → exec (.manifestData k r sa sb rb) s = .next s)
    ∧ ∀ (op : Byte) (sl : Slot), readyOp s k r op = some sl ↔ ∃ x, s.ses k.val = some x ∧ x.slots.getD r.val none = some sl
        ∧ sl.req.op = op ∧ sl.st = .waiting
        ∧ (∀ y, some y ∈ x.slots → y.st ≠ .done → cntBefore y.cnt sl.cnt = true →
            sl.req.fence = false ∧ sl.req.op ≠ 2 ∧ y.req.fence = false ∧ y.req.op ≠ 2
            ∧ (y.req.entry = sl.req.entry → y.req.index = sl.req.index → y.st ≠ .waiting ∧ y.st ≠ .seizing))
        ∧ (∀ m ∈ s.svc.inbox, m.ses = some k → m.typ = 2 → cntBefore m.cnt sl.cnt = true → 12 ≤ m.body.length →
            let q := reqOf m.body
            sl.req.fence = false ∧ sl.req.op ≠ 2 ∧ q.fence = false ∧ q.op ≠ 2
            ∧ ¬ (q.entry = sl.req.entry ∧ q.index = sl.req.index))
        ∧ (sl.req.fence = true ∨ sl.req.op = 2 → writesInForce s k x sl.cnt = true)

/-- READ answers the value of its entry, FENCE completes with status 0, and SUBSCRIBE answers the number of a subscription
it takes, changes or, with period 0, ends; each with the status of R284 that its form, availability and read right give.
One to a point's provenance on change may end at once, its queue full (R283 to R290). A read of the power state takes its
measured values first (R403). -/
def Obligations.ReadsFencesAndSubscriptionsAnswer : Prop :=
  ∀ (s : State) (k : Fin 8) (r : Fin 16) (sl : Slot) (x : Session), Shaped s → s.ses k.val = some x → s.lasts k = true →
    let q := sl.req
    let e := q.entry.toNat
    let early := earlyStatus s q
    let may := mayRead s (s.sesLevel k.val) e
    (readyOp s k r 2 = some sl → Responds (.fence k r) s k r q (fixedForm s q 0) [])
    ∧ (readyOp s k r 0 = some sl →
        (early ≠ 0 → Responds (.read k r) s k r q early [])
        ∧ (early = 0 → may = false → Responds (.read k r) s k r q 3 [])
        ∧ (early = 0 → may = true → e ≠ 0o120000 → Responds (.read k r) s k r q 0 (entryValue s e q.index.toNat))
        ∧ (early = 0 → may = true → e = 0o120000 → ∃ t s1, exec (.read k r) s = .next t ∧ Answers s1 t
            ∧ s1 = { s with draws := s.draws + 5, pws := { s.pws with
                vfa := Config.measured s.draws, vfb := Config.measured (s.draws + 1), ia := Config.measured (s.draws + 2),
                ib := Config.measured (s.draws + 3), vbus := Config.measured (s.draws + 4) } }
            ∧ t.responds k r q 0 (entryValue s1 e q.index.toNat)))
    ∧ (readyOp s k r 6 = some sl →
        (early ≠ 0 → Responds (.subscribe k r) s k r q early [])
        ∧ (early = 0 → may = false → Responds (.subscribe k r) s k r q 3 [])
        ∧ (early = 0 → may = true →
            let ew : Word := q.entry.setWidth 18
            let iw : Word := q.index.setWidth 18
            let period := field q.data 0 2
            (period = 0 → x.subOf ew iw = none → Responds (.subscribe k r) s k r q 0x0F [])
            ∧ (∀ u, period = 0 → x.subOf ew iw = some u → ∃ t, exec (.subscribe k r) s = .next t ∧ Answers s t
                ∧ t.responds k r q 0 [u.num] ∧ ∀ y, t.ses k.val = some y → ∀ v ∈ y.subs, v ∈ x.subs ∧ v.num ≠ u.num)
            ∧ (period ≠ 0 → x.subOf ew iw = none → x.subFree = none → Responds (.subscribe k r) s k r q 0x0F [])
            ∧ (period ≠ 0 → ∀ n, ((∃ u, x.subOf ew iw = some u ∧ n = u.num) ∨ (x.subOf ew iw = none
                  ∧ ∃ j, x.subFree = some j ∧ n = BitVec.ofNat 8 j)) →
                ∃ t y, exec (.subscribe k r) s = .next t ∧ Answers s t ∧ t.responds k r q 0 [n] ∧ t.ses k.val = some y
                  ∧ (e ≠ 0o200001 ∨ period ≠ 0xFFFF → ∃ v, v ∈ y.subs ∧ v.num = n ∧ v.entry = ew ∧ v.index = iw
                      ∧ v.period = BitVec.ofNat 16 period))))

/-- A Helm request needs level 1, and every answer to one carries HELM_HOLDER. One of the holder renews the lease; one of
a free Helm takes it; without SEIZE a held Helm answers 0x0E, with it a level 3 session starts a notice that the holder is
told of. The holder may release or hand over. An expired lease frees the Helm, and a freed Helm, or the end of the notice,
passes it to the seizer (R283, R291 to R294). -/
def Obligations.HelmMovesByRule : Prop :=
  ∀ (s : State) (k : Fin 8) (r : Fin 16) (sl : Slot), Shaped s → s.lasts k = true →
    (∀ z, s.svc.helm.seizer = some z → s.svc.helm.holder ≠ some z) →
    let q := sl.req
    let h := s.svc.helm
    let form := fixedForm s q 0o140000
    (∀ (op : Byte) (c : Instr), (op, c) ∈ [(3, Instr.helmRequest k r), (4, .helmRelease k r), (5, .helmHandover k r)] →
      readyOp s k r op = some sl →
      (form ≠ 0 → Responds c s k r q form (helmVal s)) ∧ (form = 0 → s.sesLevel k.val = 0 → Responds c s k r q 4 (helmVal s)))
    ∧ (form = 0 → s.sesLevel k.val ≠ 0 →
      (readyOp s k r 3 = some sl →
        (h.holder = none ∨ h.holder = some k → ∃ t, exec (.helmRequest k r) s = .next t ∧ Answers s t
          ∧ t.svc.helm.holder = some k ∧ t.svc.helm.leaseEnd = tideAdd s.now s.leaseTides ∧ t.responds k r q 0 (helmVal t))
        ∧ (∀ j, h.holder = some j → j ≠ k →
          (field q.data 0 1 = 0 → Responds (.helmRequest k r) s k r q 0x0E (helmVal s))
          ∧ (field q.data 0 1 ≠ 0 → s.sesLevel k.val < 3 → Responds (.helmRequest k r) s k r q 4 (helmVal s))
          ∧ (field q.data 0 1 ≠ 0 → 3 ≤ s.sesLevel k.val → h.seizer ≠ none →
              Responds (.helmRequest k r) s k r q 0x11 (helmVal s))
          ∧ (field q.data 0 1 ≠ 0 → 3 ≤ s.sesLevel k.val → h.seizer = none → ∃ t, exec (.helmRequest k r) s = .next t
              ∧ Answers s t ∧ t.svc.helm = { h with
                  seizer := some k, seizeRid := q.rid, noticeEnd := tideAdd s.now s.noticeTides }
              ∧ t.slot k.val r.val = some { sl with st := .seizing } ∧ t.tx = s.tx ∧ t.svc.outQ = s.svc.outQ)))
      ∧ (readyOp s k r 4 = some sl →
        (h.holder ≠ some k → Responds (.helmRelease k r) s k r q 5 (helmVal s))
        ∧ (h.holder = some k → ∃ t, exec (.helmRelease k r) s = .next t ∧ Answers s t ∧ t.responds k r q 0 (helmVal t)
            ∧ (h.seizer = none → t.svc.helm = {})
            ∧ ∀ z, h.seizer = some z → s.lasts z = true → t.svc.helm.holder = some z))
      ∧ (readyOp s k r 5 = some sl →
        let target := field q.data 0 1
        (h.holder ≠ some k → Responds (.helmHandover k r) s k r q 5 (helmVal s))
        ∧ (h.holder = some k → (∀ j : Fin 8, target = j.val → j = k ∨ s.sesLevel j.val = 0) →
            Responds (.helmHandover k r) s k r q 8 (helmVal s))
        ∧ (∀ j : Fin 8, h.holder = some k → target = j.val → j ≠ k → s.sesLevel j.val ≠ 0 →
            (h.seizer ≠ none → Responds (.helmHandover k r) s k r q 0x11 (helmVal s))
            ∧ (h.seizer = none → ∃ t, exec (.helmHandover k r) s = .next t ∧ Answers s t ∧ t.svc.helm.holder = some j
                ∧ t.svc.helm.leaseEnd = tideAdd s.now s.leaseTides ∧ t.responds k r q 0 (helmVal t)))))
    ∧ (h.holder = none ∨ reached s.now h.leaseEnd = false → exec .helmLeaseExpiry s = .next s)
    ∧ (h.holder ≠ none → reached s.now h.leaseEnd = true → ∃ t, exec .helmLeaseExpiry s = .next t ∧ Answers s t
        ∧ (h.seizer = none → t.svc.helm = {}) ∧ ∀ z, h.seizer = some z → s.lasts z = true → t.svc.helm.holder = some z)
    ∧ (h.seizer = none ∨ reached s.now h.noticeEnd = false → exec .seizureNoticeEnd s = .next s)
    ∧ (∀ z w, h.seizer = some z → reached s.now h.noticeEnd = true → s.lasts z = true →
        s.slot z.val h.seizeRid.toNat = some w → ∃ t, exec .seizureNoticeEnd s = .next t ∧ Answers s t
          ∧ t.svc.helm.holder = some z ∧ t.svc.helm.seizer = none
          ∧ t.responds z ⟨h.seizeRid.toNat, h.seizeRid.isLt⟩ w.req 0 (helmVal t))

/-- A WRITE whose command names another entry or value changes nothing. One that names this entry acts as the plain WRITE
does; a form, an entry or a state that R284 refuses early is answered with that status, and otherwise a missing right, the
Helm, a moored condition or the type with the lowest code of those that apply; for MANIFEST_COMMIT Manifest load counts as
moored (R109, R268, R269, R284, R285). -/
def Obligations.WritesRefusedByRightOrForm : Prop :=
  ∀ (s : State) (k : Fin 8) (r : Fin 16) (sl : Slot), s.lasts k = true → readyOp s k r 1 = some sl →
    let d := sl.req.data
    let e := sl.req.entry.toNat
    let early := earlyStatus s sl.req
    let rights := rightCodes s k e d
    let rows : List (Instr × Bool) := [
      (.moorCommandGroups k r, e = 0o010001 && firstIs 1 d), (.moorCommandModule k r, e = 0o010001 && firstIs 2 d),
      (.unmoorRequestGroups k r, e = 0o010002 && firstIs 1 d), (.unmoorRequestModule k r, e = 0o010002 && firstIs 2 d),
      (.softRestart k r, e = 0o010003 && ofBe d = 1), (.benchEnter k r, e = 0o010004 && ofBe d = 1),
      (.benchLeave k r, e = 0o010004 && ofBe d = 0), (.partitionResume k r, e = 0o010010 && ofBe d = 0),
      (.partitionSuspend k r, e = 0o010010 && ofBe d = 2), (.tidePeriodWrite k r, e = 0o020000),
      (.tideBudgetReportClear k r, e = 0o020002), (.eventSeverityEntry k r, e = 0o030002), (.nodeReenrol k r, e = 0o040020),
      (.fuseOverride k r, e = 0o076010), (.manifestStageOpen k r, e = 0o100010 && ofBe d % 16 = 1),
      (.manifestStageClose k r, e = 0o100010 && ofBe d % 16 = 2),
      (.manifestStageDiscard k r, e = 0o100010 && ofBe d % 16 = 3), (.manifestCommit k r, e = 0o100011),
      (.powerRetry k r, e = 0o120001), (.standbyTestNow k r, e = 0o120003), (.sessionClose k r, e = 0o140020),
      (.levelKeyWrite k r, e = 0o140200), (.protectionWrite k r, 0o160000 ≤ e && e ≤ 0o177777)]
    rows.length = 23
    ∧ ∀ x ∈ rows,
      (x.2 = false → exec x.1 s = .next s)
      ∧ (x.2 = true → exec x.1 s = exec (.write k r) s)
      ∧ (x.2 = true → early ≠ 0 → Responds x.1 s k r sl.req early [])
      ∧ (x.2 = true → early = 0 → rights ≠ [] → ∃ st, (∀ c ∈ rights, st ≤ c) ∧ st ≠ 0 ∧ Responds x.1 s k r sl.req st [])
      ∧ ∀ c, c ∈ rights ↔ c = 4 ∧ mayWrite s (s.sesLevel k.val) e = false
          ∨ c = 5 ∧ s.svc.helm.holder ≠ some k
          ∨ c = 6 ∧ pMM (protOf s e) = true ∧ moduleMoored s = false ∧ ¬ (e = 0o100011 ∧ inLoad s = true)
          ∨ c = 7 ∧ pGM (protOf s e) = true ∧ groupsMoored s e d = false
          ∨ c = 8 ∧ typeOk e d = false

/-- A MOOR_COMMAND from Enrol on adds what it names to the commanded set at the next boundary, on a Leader two boundaries
later once mirroring has started; an UNMOOR_REQUEST that nothing stands against removes what it names from the commanded
set, and of the fault moorings what is in force. A wrong form, or anything that must stay moored, answers 0x08; a unit
that follows another takes an UNMOOR_REQUEST only for its own fault moorings, without a change of its commanded set, and
otherwise answers 0x09, as to every MOOR_COMMAND (R255, R304, R305, R329, R335, R336). -/
def Obligations.MoorAndUnmoorWrites : Prop :=
  ∀ (s : State) (k : Fin 8) (r : Fin 16) (sl : Slot), s.lasts k = true →
    let d := sl.req.data
    let op := field d 0 1
    let g : GSet := if op = 1 then gsetOf (d.drop 1) else 0
    let m : Bool := op = 2
    let form := (op = 1 ∧ gsetOf (d.drop 1) ≠ 0) ∨ (op = 2 ∧ gsetOf (d.drop 1) = 0)
    let follows := s.twin.role = .follower ∨ s.twin.role = .isoSending ∨ s.twin.role = .isoSilent
    let at0 := if s.twin.role = .leader ∧ 3 ≤ s.tide.ph.toNat then tideAdd s.now 2 else tideAdd s.now 1
    (∀ c, (op = 1 ∧ c = Instr.moorCommandGroups k r) ∨ (op = 2 ∧ c = .moorCommandModule k r) →
      s.mayWriteNow k r 0o010001 sl = true →
      (¬ form ∨ s.armedMode = false → Responds c s k r sl.req 8 [])
      ∧ (form → s.armedMode = true → follows → Responds c s k r sl.req 9 [])
      ∧ (form → s.armedMode = true → ¬ follows → Executes c s k r sl
          { s with moor := if s.twin.role = .leader then
              { s.moor with qAddG := s.moor.qAddG ||| g, qAddM := s.moor.qAddM || m }
            else { s.moor with addG := s.moor.addG ||| g, addM := s.moor.addM || m } } at0))
    ∧ ∀ c, (op = 1 ∧ c = Instr.unmoorRequestGroups k r) ∨ (op = 2 ∧ c = .unmoorRequestModule k r) →
      s.mayWriteNow k r 0o010002 sl = true →
      let commits := s.man.stage = 6
      let groupBar (n : Nat) : Prop := gHas s.moor.addG n = true ∨ gHas s.moor.qAddG n = true
        ∨ (gHas s.mooredG n = true ∧ commits ∧ gHas s.man.touch n = true)
        ∨ (gHas s.moor.faultG n = true ∧ ∃ src, (n, src) ∈ s.moor.gSrc)
      let free := s.mode = .live ∧ s.moor.mSrc = [] ∧ (∀ e ∈ s.ev, e.parerr = false) ∧ s.evb.parerr = false ∧ ¬ commits
      let moduleBar := s.mode ≠ .live ∨ s.moor.addM = true ∨ s.moor.qAddM = true ∨ (s.mooredM = true ∧ commits)
        ∨ ((s.moor.faultM = true ∨ s.moor.startup = true) ∧ ¬ free)
      let bars := ¬ form ∨ s.start.bench = true ∨ (∃ n, n < 512 ∧ gHas g n = true ∧ groupBar n) ∨ (m = true ∧ moduleBar)
      let fm := m && (s.moor.faultM || s.moor.startup)
      let leaders := follows ∧ ((∃ n, n < 512 ∧ gHas g n = true ∧ gHas s.moor.faultG n = false) ∨ (m = true ∧ fm = false))
      (bars → Responds c s k r sl.req 8 [])
      ∧ (¬ bars → leaders → Responds c s k r sl.req 9 [])
      ∧ (¬ bars → ¬ leaders → Executes c s k r sl
          { s with
            dict := { s.dict with lastUnmoor := d },
            moor := if s.twin.role = .leader then
              { s.moor with qRemG := s.moor.qRemG ||| g, qRemM := s.moor.qRemM || m,
                            qRemFG := s.moor.qRemFG ||| (g &&& s.moor.faultG), qRemFM := s.moor.qRemFM || fm }
            else if follows then
              { s.moor with remFG := s.moor.remFG ||| (g &&& s.moor.faultG), remFM := s.moor.remFM || fm }
            else { s.moor with remG := s.moor.remG ||| g, remM := s.moor.remM || m,
                               remFG := s.moor.remFG ||| (g &&& s.moor.faultG), remFM := s.moor.remFM || fm } } at0)

/-- SOFT_RESTART and a change of Bench wait for the next boundary; Bench is refused with 0x09 in a pair. PARTITION_CONTROL
suspends a running partition, whose waiting fence is abandoned, and resumes a suspended one, and is refused with 0x08
otherwise (R306, R307, R361). -/
def Obligations.ModuleStateWrites : Prop :=
  ∀ (s : State) (k : Fin 8) (r : Fin 16) (sl : Slot), s.lasts k = true →
    let v := ofBe sl.req.data
    let resumed : State := { s with core := { s.core with part := 0 } }
    let suspended : State := { s with core := { s.core with part := 2, fenceReg := none } }
    (s.mayWriteNow k r 0o010003 sl = true →
      (v = 1 → Executes (.softRestart k r) s k r sl { s with start := { s.start with restart := true } } (tideAdd s.now 1))
      ∧ (v ≠ 1 → Responds (.write k r) s k r sl.req 8 []))
    ∧ (s.mayWriteNow k r 0o010004 sl = true →
      (v = 1 → s.twin.role = .solo ∨ s.twin.role = .resync → Executes (.benchEnter k r) s k r sl
        { s with start := { s.start with benchNext := some true } } (tideAdd s.now 1))
      ∧ (v = 1 → s.twin.role ≠ .solo → s.twin.role ≠ .resync → Responds (.benchEnter k r) s k r sl.req 9 [])
      ∧ (v = 0 → Executes (.benchLeave k r) s k r sl { s with start := { s.start with benchNext := some false } }
          (tideAdd s.now 1))
      ∧ (1 < v → Responds (.write k r) s k r sl.req 8 []))
    ∧ (s.mayWriteNow k r 0o010010 sl = true →
      (v = 0 → s.core.part ≠ 0 → Executes (.partitionResume k r) s k r sl resumed s.now)
      ∧ (v = 0 → s.core.part = 0 → Responds (.partitionResume k r) s k r sl.req 8 [])
      ∧ (v = 2 → s.core.part = 0 → Executes (.partitionSuspend k r) s k r sl suspended s.now)
      ∧ (v = 2 → s.core.part ≠ 0 → Responds (.partitionSuspend k r) s k r sl.req 8 [])
      ∧ (v ≠ 0 → v ≠ 2 → Responds (.write k r) s k r sl.req 8 []))

/-- TIDE_PERIOD takes 1, 2 or 4 ms that the active Manifest's limits allow, on a Solo unit at the next boundary and on a
Leader at the one the pair agrees on; the budget report clears; a failed power stage whose feed is in range starts again;
a standby test is requested; a node is withdrawn and offered anew (R45, R78, R231, R257, R385, R404). -/
def Obligations.TidePowerAndNodeWrites : Prop :=
  ∀ (s : State) (k : Fin 8) (r : Fin 16) (sl : Slot), s.lasts k = true →
    let d := sl.req.data
    let v := ofBe d
    let per : BitVec 3 := BitVec.ofNat 3 v
    let i := sl.req.index.toNat
    (s.mayWriteNow k r 0o020000 sl = true →
      let ok := (v = 1 ∨ v = 2 ∨ v = 4) ∧ periodFits s v = true
      let t := tideAdd s.now (if 3 ≤ s.tide.ph.toNat then 3 else 2)
      (¬ ok → Responds (.tidePeriodWrite k r) s k r sl.req 8 [])
      ∧ (ok → s.twin.role ≠ .solo → s.twin.role ≠ .leader → Responds (.tidePeriodWrite k r) s k r sl.req 9 [])
      ∧ (ok → s.twin.role = .solo → Executes (.tidePeriodWrite k r) s k r sl
          { s with tide := { s.tide with perNext := some (per, tideAdd s.now 1) } } (tideAdd s.now 1))
      ∧ (ok → s.twin.role = .leader → Executes (.tidePeriodWrite k r) s k r sl
          { s with tide := { s.tide with perNext := some (per, t) }, twin := { s.twin with pper := per, ptide := t } } t))
    ∧ (s.mayWriteNow k r 0o020002 sl = true → Executes (.tideBudgetReportClear k r) s k r sl
        { s with tide := { s.tide with budget := List.replicate 8 0 } } s.now)
    ∧ (s.mayWriteNow k r 0o120001 sl = true →
      (∀ side : Die, v = (match side with
          | .A => 1
          | .B => 2) →
        (s.pws.stage side = 5 → s.pws.feedOk side = true →
          Executes (.powerRetry k r) s k r sl { s with pws := s.pws.setStage side 1 } s.now)
        ∧ (s.pws.stage side ≠ 5 ∨ s.pws.feedOk side = false → Responds (.powerRetry k r) s k r sl.req 8 []))
      ∧ (v ≠ 1 → v ≠ 2 → Responds (.powerRetry k r) s k r sl.req 8 []))
    ∧ (s.mayWriteNow k r 0o120003 sl = true →
      (v = 1 → Executes (.standbyTestNow k r) s k r sl { s with pws := { s.pws with testReq := true } } s.now)
      ∧ (v ≠ 1 → Responds (.standbyTestNow k r) s k r sl.req 8 []))
    ∧ (s.mayWriteNow k r 0o040020 sl = true →
      (v ≠ 1 ∨ s.netA.nnode ≤ i → Responds (.nodeReenrol k r) s k r sl.req 8 [])
      ∧ (v = 1 → i < s.netA.nnode → i < s.nodes.length → ∃ s1, Executes (.nodeReenrol k r) s k r sl s1 s.now
          ∧ NodeBecomes s s1 i { s.nodes.getD i {} with
              enrolled := false, enrolAt := none, withdraw := true, wantOffer := true, reenrol := true, unanswered := 0,
              slow := false, offerAt := none }))

/-- A kept value that is written waits for its settings copy: severities that keep every minimum and level keys and
protection octets wait for the boundary, masks and TWIN_HOLD are in force at once. Fuse overrides of the trims and of the
overridable regions wait for the boundary, and AUTH_FAIL takes its value (R270, R275, R299, R309, R315, R318, R374).
SESSION_CLOSE ends the session it names, without a RESPONSE where that is its own. EVENT_CLEAR acts as the block's CLEAR
register, and answers 0x08 where that refuses (R280, R299, R309, R333). -/
def Obligations.SettingsEventsAndSessionEntries : Prop :=
  (∀ (s : State) (k : Fin 8) (r : Fin 16) (sl : Slot), Shaped s → s.lasts k = true →
    let d := sl.req.data
    let i := sl.req.index.toNat
    let kept : DictSt := { s.dict with keptSince := some (s.dict.keptSince.getD s.now) }
    let next := tideAdd s.now 1
    (s.mayWriteNow k r 0o030002 sl = true →
      let lo : Word := BitVec.ofNat 18 (field d 0 3)
      let hi : Word := BitVec.ofNat 18 (field d 3 3) &&& 0o37777
      let ok := i ≠ 1 ∧ i ≠ 3 ∧ field d 0 3 < 262144 ∧ field d 3 3 < 262144 ∧ sevWordAllowed i false lo = true
        ∧ sevWordAllowed i true hi = true
      (¬ ok → Responds (.eventSeverityEntry k r) s k r sl.req 8 [])
      ∧ (ok → ∃ s1, Executes (.eventSeverityEntry k r) s k r sl s1 next ∧ s1 = { s with ev := s1.ev, dict := kept }
          ∧ (i < 18 → s1.evOf i = { s.evOf i with nextL := some lo, nextH := some hi })
          ∧ ∀ b, b ≠ i → s1.evOf b = s.evOf b))
    ∧ (s.mayWriteNow k r 0o030003 sl = true →
      (i = 3 ∨ 262143 < field d 0 3 → Responds (.write k r) s k r sl.req 8 [])
      ∧ (i ≠ 3 → field d 0 3 ≤ 262143 → ∃ s1, Executes (.write k r) s k r sl s1 s.now ∧ s1 = { s with ev := s1.ev, dict := kept }
          ∧ (i < 18 → s1.evOf i = { s.evOf i with mask := BitVec.ofNat 16 (field d 0 3) })
          ∧ ∀ b, b ≠ i → s1.evOf b = s.evOf b))
    ∧ (s.mayWriteNow k r 0o050002 sl = true →
      (60 < ofBe d → Responds (.write k r) s k r sl.req 8 [])
      ∧ (ofBe d ≤ 60 → Executes (.write k r) s k r sl
          { s with dict := kept, twin := { s.twin with hold := BitVec.ofNat 9 (ofBe d) } } s.now))
    ∧ (s.mayWriteNow k r 0o140030 sl = true → Executes (.write k r) s k r sl
        { s with svc := { s.svc with authFail := BitVec.ofNat 36 (ofBe d) } } s.now)
    ∧ (s.mayWriteNow k r 0o140200 sl = true → Executes (.levelKeyWrite k r) s k r sl
        { s with dict := { kept with keysNext := s.dict.keysNext.filter (fun x => x.1 ≠ i) ++ [(i, d)] } } next)
    ∧ (∀ j, j < 8192 → s.mayWriteNow k r (0o160000 + j) sl = true →
      let bad := ∃ n, n < d.length ∧ (protBad (d.getD n 0) = true ∨ protWeaker (d.getD n 0) (floorOf (32 * j + n)) = true)
      (bad → Responds (.protectionWrite k r) s k r sl.req 8 [])
      ∧ (¬ bad → Executes (.protectionWrite k r) s k r sl
          { s with dict := { kept with protNext := s.dict.protNext.filter (fun x => x.1 ≠ j) ++ [(j, d)] } } next))
    ∧ (s.mayWriteNow k r 0o076010 sl = true →
      let at0 := field d 0 2
      let v := field d 2 3
      let w := at0 % 512
      let ok := at0 ≤ 1023 ∧ v ≤ 262143
        ∧ (w ∈ [20, 21, 84, 85, 148, 149] ∨ (208 ≤ w ∧ w < 384))
      (¬ ok → Responds (.fuseOverride k r) s k r sl.req 8 [])
      ∧ (ok → Executes (.fuseOverride k r) s k r sl
          (s.modFuse (if at0 < 512 then .A else .B) fun f => { f with
            ovrNext := f.ovrNext.filter (fun x => x.1 ≠ w) ++ [(w, BitVec.ofNat 18 v)] }) next)))
  ∧ (∀ (s : State) (k : Fin 8) (r : Fin 16) (sl : Slot), Shaped s → s.lasts k = true →
    let d := sl.req.data
    let i := sl.req.index.toNat
    (s.mayWriteNow k r 0o140020 sl = true → s.svc.helm.seizer ≠ some k →
      (ofBe d ≠ 1 → Responds (.sessionClose k r) s k r sl.req 8 [])
      ∧ (ofBe d = 1 → i = k.val → ∃ t, exec (.sessionClose k r) s = .next t ∧ Answers s t ∧ t.ses k.val = none)
      ∧ ∀ j : Fin 8, ofBe d = 1 → i = j.val → j ≠ k → ∃ s1, Executes (.sessionClose k r) s k r sl s1 s.now ∧ Answers s s1
          ∧ s1.ses j.val = none ∧ s1.svc.helm.holder = some k
          ∧ ((∀ n : Fin 8, sesSpent s n = false) → ∀ n : Fin 8, n ≠ j → s1.ses n.val = s.ses n.val))
    ∧ ∀ (found : BitVec 16) (b : Fin 18), s.runs .A = true → s.mayWriteNow k r 0o030001 sl = true → i = b.val →
      let v := field d 0 3
      let bits := BitVec.ofNat 16 v
      let refused := 262143 < v ∨ b = 3
        ∨ ∃ j : Fin 16, j.val < Config.countOf b.val ∧ bits.getLsbD j.val = true ∧ causePersists s b.val j.val found = true
      (refused → Responds (.eventClearEntry k r found) s k r sl.req 8 [])
      ∧ (¬ refused → ∃ s1, exec (.eventClear b bits found) s = .next s1
          ∧ Executes (.eventClearEntry k r found) s k r sl s1 s.now))

/-- OPEN, CLOSE and DISCARD act in the states R106 names and answer 0x08 elsewhere; OPEN and DISCARD erase the inactive
slot of both devices, and once both erasures have ended the stage is Receiving or Empty, or Refused with reason 0o021
where one failed (R106, R107). MANIFEST_DATA clears in the inactive slot of each device the bits that are 0 in its own
copy of the 1,024 octets, where its array clears them, and nothing else; the stage is Refused where they do not read back.
The B-die's copy is what its tap keeps of the frames, for 64 tides. Outside Receiving, from the partition, or where the
B-die does not hold the same octets, nothing is stored and the answer is 0x08 (R106, R110). -/
def Obligations.StagesOpenAndStoreData : Prop :=
  (∀ (s : State),
    (∀ (k : Fin 8) (r : Fin 16) (sl : Slot), s.lasts k = true → s.mayWriteNow k r 0o100010 sl = true →
      let cmd := ofBe sl.req.data % 16
      let st := s.man.stage
      let erased (next : BitVec 4) : State := { s with
        man := { s.man with stage := 7, afterErase := next, proof := none, staged := none, stagedB := none }
        norA := norEraseSlot s.norA (inactiveSlot s), norB := norEraseSlot s.norB (inactiveSlot s) }
      (cmd = 1 → st = 0 → Executes (.manifestStageOpen k r) s k r sl (erased 1) s.now)
      ∧ (cmd = 1 → st ≠ 0 → Responds (.manifestStageOpen k r) s k r sl.req 8 [])
      ∧ (cmd = 2 → st = 1 → Executes (.manifestStageClose k r) s k r sl { s with man := { s.man with stage := 2 } } s.now)
      ∧ (cmd = 2 → st ≠ 1 → Responds (.manifestStageClose k r) s k r sl.req 8 [])
      ∧ (cmd = 3 → st = 1 ∨ st = 4 ∨ st = 5 → Executes (.manifestStageDiscard k r) s k r sl (erased 0) s.now)
      ∧ (cmd = 3 → st ≠ 1 → st ≠ 4 → st ≠ 5 → Responds (.manifestStageDiscard k r) s k r sl.req 8 [])
      ∧ (cmd = 0 ∨ 3 < cmd → Responds (.write k r) s k r sl.req 8 []))
    ∧ (∀ (nor : List Host.Cell) (slot a : Nat), norGet (norEraseSlot nor slot) a =
        if slotBase slot ≤ a ∧ a < slotBase slot + 48 * 1024 * 1024 then 0xFF else norGet nor a)
    ∧ ∀ ok : Bool,
      (s.man.stage ≠ 7 → exec (.norEraseDone ok) s = .next s)
      ∧ (s.man.stage = 7 → exec (.norEraseDone true) s = .next { s with man := { s.man with
          stage := s.man.afterErase, stageReason := 0, stageDig := List.replicate 32 0, touch := 0 } })
      ∧ (s.man.stage = 7 → ∃ t, exec (.norEraseDone false) s = .next t
          ∧ Recorded { s with man := { s.man with stage := 5, stageReason := 0o021, proof := none } } t))
  ∧ (∀ (s : State) (k : Fin 8) (r : Fin 16) (sl : Slot) (stuckA stuckB : Octets) (readBack : Bool),
    StoresWf s → s.lasts k = true → s.mayWriteNow k r 0o100020 sl = true →
    let d := sl.req.data
    let base := slotBase (inactiveSlot s) + 1024 * sl.req.index.toNat
    let tap : Octets := match sl.tap with
      | some x => if s.runs .B = true ∧ tideGap s.now x.since ≤ 64 then slice x.octets 20 1024 else []
      | none => []
    let good := s.man.stage = 1 ∧ s.sesPath k.val ≠ 3 ∧ tap.length = 1024 ∧ crc32c tap = crc32c d
    (¬ good → Responds (.manifestData k r stuckA stuckB readBack) s k r sl.req 8 [])
    ∧ (good → ∃ s1, Executes (.manifestData k r stuckA stuckB readBack) s k r sl s1 s.now ∧ StoresWf s1
        ∧ (∀ a, norGet s1.norA a = if base ≤ a ∧ a < base + 1024 then
            norGet s.norA a &&& (d.getD (a - base) 0 ||| stuckA.getD (a - base) 0) else norGet s.norA a)
        ∧ (∀ a, norGet s1.norB a = if base ≤ a ∧ a < base + 1024 then
            norGet s.norB a &&& (tap.getD (a - base) 0 ||| stuckB.getD (a - base) 0) else norGet s.norB a)
        ∧ (let same := readBack = true
             ∧ ∀ j, j < 1024 → norGet s1.norA (base + j) = d.getD j 0 ∧ norGet s1.norB (base + j) = tap.getD j 0
           (same → s1 = { s with norA := s1.norA, norB := s1.norB })
           ∧ (¬ same → Recorded { s with
              norA := s1.norA, norB := s1.norB,
              man := { s.man with stage := 5, stageReason := 0o021, proof := none } } s1))))

/-- At CLOSE both dies check the slot: any reason, or a difference between the dies, refuses the stage with the lowest
code and records every one, otherwise it is Proving. Wrong opcode vectors or different records fire source 31 and refuse
the stage with 0o020. While neither die evaluates and before the comparison, a proof step runs both channels over the
slice from the same stimulus, 16 times in a tide at most; of the signatures that wait the first that differ fail the
proof, and after 4,096 steps of every slice it has passed (R106, R107, R171 to R176). -/
def Obligations.StagesAreVerifiedAndProved : Prop :=
  ∀ (s : State) (run : ProofRun), Shaped s →
    let slot := inactiveSlot s
    let ca := checkSlot s.norA slot
    let cb := checkSlot s.norB slot
    let ra := stageReasons s ca
    let rb := stageReasons s cb
    let rs := ra ++ rb ++ (if lowest ra = lowest rb ∧ ca.digest = cb.digest then [] else [0o017])
    (s.man.stage ≠ 2 → exec .stageVerifyDone s = .next s)
    ∧ (s.man.stage = 2 → rs ≠ [] ∨ ca.net = none ∨ cb.net = none → ∃ t, exec .stageVerifyDone s = .next t
        ∧ (let s1 : State := { s with man := { s.man with
            stage := 5, stageReason := BitVec.ofNat 9 (lowest rs), proof := none } }
          Recorded s1 t ∧ ∃ order : List Nat, order.Pairwise (· < ·) ∧ (∀ c, c ∈ order ↔ c ∈ rs)
            ∧ t = order.foldl (fun u c => recManifest u 1 c s.man.seq.toNat slot ca.digest) s1))
    ∧ (∀ nA nB, s.man.stage = 2 → rs = [] → ca.net = some nA → cb.net = some nB → ∃ t p, exec .stageVerifyDone s = .next t
        ∧ t = { s with man := t.man } ∧ t.man.stage = 3 ∧ t.man.stageDig = ca.digest ∧ t.man.staged = some nA
        ∧ t.man.stagedB = some nB ∧ t.man.proof = some p ∧ p.netB = nB ∧ p.batches = batchesOf nA
        ∧ p.netA = nA.translated p.batches ∧ p.step = 0 ∧ p.slice = 0 ∧ p.sent = [] ∧ p.lfsr = lfsrSeed nA.digest
        ∧ (s.mode ≠ .load → t.man.touch = touched s.netA nA ∧ t.man.netchg = nA.netchg
            ∧ t.man.big = decide (131072 < delta nA (touched s.netA nA)))
        ∧ (s.mode = .load → t.man.touch = BitVec.allOnes 512 ∧ t.man.big = true))
    ∧ (s.man.stage ≠ 3 ∨ s.man.proof = none → exec (.stageProofStep run) s = .next s)
    ∧ (∀ p, s.man.stage = 3 → s.man.proof = some p →
        let fails : Prop := ∃ t s1, exec (.stageProofStep run) s = .next t ∧ Fires s s1 31 ∧ Recorded { s1 with
          man := { s.man with stage := 5, stageReason := 0o020, proof := none } } t
        let same := structuralOk p.batches p.netB
        let may := s.runs .A = true ∧ s.runs .B = true ∧ s.tide.ph = 1 ∧ (s.a.armed = true → s.tide.aDone = true)
          ∧ (s.b.armed = true → s.tide.bDone = true)
        (same = false ∨ run.vectors = false → fails)
        ∧ (same = true → run.vectors = true → ¬ may → exec (.stageProofStep run) s = .next s)
        ∧ (same = true → run.vectors = true → may →
            let ran := if p.inTide = s.now then p.ran else 0
            let k := min run.steps.val (16 - ran)
            exec (.stageProofStep run) s = .next { s with man := { s.man with
              proof := some { proofSteps s.per k p with inTide := s.now, ran := ran + k } } }))
    ∧ ∀ (per : Nat) (p : ProofSt),
        let st := stimStep p.netA p.step p.pts p.lfsr
        let a := proofChannel p.netA per p.idxs p.step st.1 { words := p.wordsA, inst := p.instA }
        let b := proofChannel p.netB per p.idxs p.step st.1 { words := p.wordsB, inst := p.instB }
        (p.step < 4096 → proofStep per p = { p with
          step := p.step + 1, lfsr := st.2, pts := st.1, wordsA := a.1.words, wordsB := b.1.words, instA := a.1.inst,
          instB := b.1.inst, sent := p.sent ++ [(p.step, a.2, b.2)] })
        ∧ (4096 ≤ p.step → proofStep per p = p)
        ∧ (∀ k, p.step ≤ 4096 → (proofSteps per k p).step = min 4096 (p.step + k))
        ∧ (∀ subj, proofCompare p = .failed subj ↔ ∃ x, p.sent.find? (fun x => x.2.1 ≠ x.2.2) = some x
            ∧ subj = proofSubject .stimulus p.slice x.1)
        ∧ (proofCompare p = .passed ↔ (∀ x ∈ p.sent, x.2.1 = x.2.2) ∧ 4096 ≤ p.step ∧ p.rest = [])
        ∧ (∀ q, proofCompare p = .more q → p.step < 4096 → q = { p with sent := [] })
        ∧ (∀ q, proofCompare p = .more q → 4096 ≤ p.step → q.slice = p.slice + 1 ∧ q.step = 0 ∧ q.sent = []
            ∧ q.idxs :: q.rest = p.rest ∧ q.netA = p.netA ∧ q.netB = p.netB)

/-- An accepted commit writes both commit records of the staged slot on both devices with one SEQ above the highest. Once
both dies confirm, within 64 tides and with records that read back, it is in force at the next boundary, or, on a Leader
with a Follower, when the Follower too has confirmed; a failed die, records that do not read back, or 64 tides without
confirmation refuse it and clear the records' MARK. After the last A_DONE under the old Manifest the swap of what the
commit replaces begins, and the rebuilt cone table lets run-ahead resume, with source 32 where it lacks a node (R109,
R110, R115, R152, R178, R243, R255, R256). -/
def Obligations.CommitsConfirmOrFail : Prop :=
  ∀ (s : State), Shaped s →
    let late := reached s.now (tideAdd s.man.commitAt 64) = true
    let record := codeOctets (commitWords s.man.commitSeq.toNat s.man.commitTide s.man.stageDig)
    let stored := ∀ a ∈ commitOffsets (inactiveSlot s),
      norOctets s.norA a record.length = record ∧ norOctets s.norB a record.length = record
    let refused (t : State) : Prop := ∃ s1, Recorded s1 t
      ∧ s1 = { s with
          norA := clearCommits s.norA (inactiveSlot s), norB := clearCommits s.norB (inactiveSlot s),
          man := { s.man with stage := 4, stageReason := 0o021, confirmed := false, forceAt := none, swapDone := false },
          eva := { s.eva with swap := false },
          twin := { s.twin with cop := s1.twin.cop, copLeft := s1.twin.copLeft, cconf := s1.twin.cconf, cref := s1.twin.cref } }
      ∧ (s.twin.role = .leader → s.twin.cop ≠ 0 → s1.twin.cop = 3)
    (∀ (k : Fin 8) (r : Fin 16) (sl : Slot), s.lasts k = true → s.mayWriteNow k r 0o100011 sl = true →
      let d := sl.req.data
      let follows := s.twin.role = .follower ∨ s.twin.role = .isoSending ∨ s.twin.role = .isoSilent
      let codes := commitCodes s d ++ (if follows then [9] else [])
      let seq := 1 + max (highestSeq s.norA) (highestSeq s.norB)
      let at0 := tideAdd s.now (1 + (Config.forecast s.draws).toNat)
      let hopt := ((s.man.staged).map fun n => n.sec7.headD 0) ≠ some (s.netA.sec7.headD 0)
      (∀ c, c ∈ commitCodes s d ↔
          c = 8 ∧ (s.man.stage ≠ 4 ∨ d ≠ s.man.stageDig
            ∨ (s.mode ≠ .load ∧ ((s.man.staged).map Net.pred).getD [] ≠ s.man.active))
          ∨ c = 7 ∧ s.man.stage = 4 ∧ wholeMay s = false
              ∧ (∃ g, g < 512 ∧ gHas s.man.touch g = true ∧ s.groupMoored g = false)
          ∨ c = 6 ∧ s.man.stage = 4 ∧ wholeMay s = false ∧ (s.man.netchg = true ∨ s.man.big = true ∨ hopt))
      ∧ (codes ≠ [] → Responds (.manifestCommit k r) s k r sl.req (lowest codes) [])
      ∧ (codes = [] → Executes (.manifestCommit k r) s k r sl { s with
          draws := s.draws + 1, norA := writeCommits s.norA (inactiveSlot s) seq at0 d,
          norB := writeCommits s.norB (inactiveSlot s) seq at0 d,
          man := { s.man with
            stage := 6, commitAt := s.now, commitSeq := BitVec.ofNat 36 seq, commitTide := at0, confirmed := false,
            forceAt := none, swapDone := false },
          dict := { s.dict with lastCommit := d, commitBy := some (k, sl.cnt) },
          twin := if peerFollower s then { s.twin with cop := 1, cdigest := d, copLeft := 0 } else s.twin } at0))
    ∧ (s.man.stage ≠ 6 ∨ s.man.confirmed = true ∨ late → exec .commitConfirmed s = .next s)
    ∧ (s.man.stage = 6 → s.man.confirmed = false → ¬ late → ¬ stored → ∃ t, exec .commitConfirmed s = .next t ∧ refused t)
    ∧ (s.man.stage = 6 → s.man.confirmed = false → s.man.forceAt = none → ¬ late → stored →
        (s.twin.role = .follower → exec .commitConfirmed s = .next { s with
          man := { s.man with confirmed := true }, twin := { s.twin with cconf := true } })
        ∧ (s.twin.role ≠ .follower → s.twin.role ≠ .leader ∨ s.twin.cop ≠ 1 → exec .commitConfirmed s = .next { s with
          man := { s.man with confirmed := true, forceAt := some (tideAdd s.now 1) } })
        ∧ (s.twin.role = .leader → s.twin.cop = 1 → s.twin.cconf = false → exec .commitConfirmed s = .next { s with
          man := { s.man with confirmed := true } })
        ∧ (s.twin.role = .leader → s.twin.cop = 1 → s.twin.cconf = true →
            let n := if s.tide.ph.toNat < 3 then 2 else 3
            exec .commitConfirmed s = .next { s with
              man := { s.man with confirmed := true, forceAt := some (tideAdd s.now n) },
              twin := { s.twin with cop := 2, copLeft := n, ctide := tideAdd s.now n } }))
    ∧ (∀ failed : Bool,
        let fails := s.man.stage = 6 ∧ s.man.forceAt = none
          ∧ (failed = true ∨ (late ∧ s.man.confirmed = false))
        (¬ fails → exec (.commitTimeout failed) s = .next s)
        ∧ (fails → ∃ t, exec (.commitTimeout failed) s = .next t ∧ refused t))
    ∧ (let due := s.man.stage = 6 ∧ s.man.forceAt = some (tideAdd s.now 1) ∧ s.tide.aDone = true ∧ s.man.swapDone = false
         ∧ ¬ (s.man.touch = 0 ∧ s.man.big = false)
       (¬ due → exec .commitSwap s = .next s)
       ∧ (due → ∃ t, exec .commitSwap s = .next t ∧ Fires { s with
          man := { s.man with swapDone := true, rebuildSince := some s.now }, eva := { s.eva with swap := true, cones := false } } t 32))
    ∧ (s.man.rebuildSince = none ∨ s.eva.swap = true ∨ s.a.armed = false → exec .coneTableRebuilt s = .next s)
    ∧ (s.man.rebuildSince ≠ none → s.eva.swap = false → s.a.armed = true → ∃ t, exec .coneTableRebuilt s = .next t
        ∧ (let kept := conesKept s.netX s.eva.batches
          FiresIf (decide (kept.length < s.netX.nnode)) { s with
            man := { s.man with rebuildSince := none }, eva := { s.eva with cones := true, coneNodes := kept } } t 32))

/-- The module leaves Manifest load only when both dies have loaded equal Manifests, with the Manifest's period from the
next boundary and its node layout in declaration SRAM; every other outcome keeps it there with the reason of R104. In
Translate and prove a translation past its bound fires source 30, and each tide after the opcode vectors runs one proof
step over the whole net. A passed proof arms it and goes on at the next boundary, a failed one fires source 31 and returns
it to Manifest load with reason 0o020. A background finding is kept and recorded and changes nothing else (R42, R101 to
R104, R116, R150, R171, R174, R175, R177, R393). -/
def Obligations.ManifestsLoadAndProve : Prop :=
  ∀ (s : State), Shaped s → StoresWf s →
    let la := loadDie s.norA
    let lb := loadDie s.norB
    let why := loadReason la lb
    let slot : BitVec 9 := BitVec.ofNat 9 (la.slot.getD 2)
    let noted : ManSt := { s.man with
      slot := slot, checkA := s.man.checkA ||| loadCheck la, checkB := s.man.checkB ||| loadCheck lb }
    (why = 0 ↔ ∃ nA nB, la.passed = some nA ∧ lb.passed = some nB ∧ la.chk.digest = lb.chk.digest ∧ la.seq = lb.seq)
    ∧ (s.mode ≠ .load ∨ s.man.stage = 6 ∨ why ≠ 0 → exec .manifestLoadDone s = .next s)
    ∧ (∀ nA nB, s.mode = .load → s.man.stage ≠ 6 → why = 0 → la.passed = some nA → lb.passed = some nB →
        ∃ t, exec .manifestLoadDone s = .next t ∧ Recorded { s with
          man := { noted with seq := BitVec.ofNat 36 la.seq, active := la.chk.digest, reason := 0 },
          a := { s.a with net := some nA }, b := { s.b with net := some nB },
          tide := { s.tide with perNext := some (BitVec.ofNat 3 nA.period, tideAdd s.now 1) },
          start := { s.start with modeNext := some .translate, toLive := false },
          rows := cellErase s.rows declBase (declBase + 2 ^ 20), mem := t.mem,
          nodes := List.replicate nA.nnode {} } t
        ∧ (∀ j, j < (layoutWords nA).length →
            cellGet 0 t.mem (declBase + 786432 + j) = (layoutWords nA).getD j 0)
        ∧ ∀ a, a < declBase + 786432 → cellGet 0 t.mem a = cellGet 0 s.mem a)
    ∧ (s.mode ≠ .load ∨ why = 0 ∨ s.start.modeNext ≠ none → exec .manifestLoadRefused s = .next s)
    ∧ (s.mode = .load → why ≠ 0 → s.start.modeNext = none → ∃ t, exec .manifestLoadRefused s = .next t
        ∧ Recorded { s with man := { noted with reason := BitVec.ofNat 9 why } } t)
    ∧ (∀ tp, s.mode = .translate → s.start.tp = some tp → tp.result = none →
        let t := translateTide s
        let p := tp.proof.getD (wholeProof s)
        let after (q : Option ProofSt) (r : Option (BitVec 32)) : State := { s with
          eva := if tp.proof.isSome then s.eva else { s.eva with batches := p.batches },
          start := { s.start with tp := some { tp with proof := q, result := r } } }
        (reached s.now tp.translated = false →
          FiresIf (decide (s.now = tideAdd tp.since (2048 / s.per + 1))) s t 30)
        ∧ (reached s.now tp.translated = true → reached s.now tp.proofFrom = false ∨ s.runs .B = false → t = s)
        ∧ (reached s.now tp.translated = true → reached s.now tp.proofFrom = true → s.runs .B = true →
            t = match proofCompare (proofStep s.per p) with
              | .more q => after (some q) none
              | .passed =>
                after none (some (if structuralOk p.batches p.netB then 0 else proofSubject .structural 0 p.step))
              | .failed subj => after none (some subj)))
    ∧ (∀ vectors : Bool,
        let ended : Option (BitVec 32) := s.start.tp.bind fun tp =>
          if vectors then tp.result
          else if reached s.now tp.translated then some (proofSubject .vectors 0 0) else none
        (s.mode ≠ .translate ∨ s.start.modeNext ≠ none ∨ ended = none → exec (.translateProveDone vectors) s = .next s)
        ∧ (s.mode = .translate → s.start.modeNext = none → ended = some 0 → ∃ t, exec (.translateProveDone vectors) s = .next t
            ∧ (let kept := conesKept s.netX s.eva.batches
              FiresIf (decide (kept.length < s.netX.nnode)) { s with
                man := { s.man with rebuildSince := none }, eva := { s.eva with cones := true, coneNodes := kept },
                start := { s.start with modeNext := some (if s.start.toLive then .live else .enrol) } } t 32))
        ∧ (∀ subj, s.mode = .translate → s.start.modeNext = none → ended = some subj → subj ≠ 0 → ∃ t s1,
            exec (.translateProveDone vectors) s = .next t ∧ Fires s s1 31 ∧ t = { s1 with
              man := { s.man with reason := 0o020, active := List.replicate 32 0, seq := 0 },
              start := { s.start with modeNext := some .load } }))
    ∧ ∀ d : Die,
        let nor := match d with
          | .A => s.norA
          | .B => s.norB
        let c := checkSlot nor s.man.slot.toNat
        let found := (backgroundFinding nor s.man.slot.toNat s.man.active).1
        let idle := s.runs d = false ∨ s.man.active = List.replicate 32 0 ∨ 1 < s.man.slot.toNat ∨ found = 0
        (found.getLsbD 1 = true ↔ 0o001 ∈ c.reasons ∨ 0o003 ∈ c.reasons)
        ∧ (found.getLsbD 2 = true ↔ c.corrupt = true ∨ 0o002 ∈ c.reasons)
        ∧ (idle → exec (.backgroundManifestCheck d) s = .next s)
        ∧ (¬ idle → ∃ t, exec (.backgroundManifestCheck d) s = .next t ∧ Recorded { s with
            man := match d with
              | .A => { s.man with checkA := s.man.checkA ||| found }
              | .B => { s.man with checkB := s.man.checkB ||| found } } t)

/-- The lowest enabled region in force that contains an address decides a partition access, and the address map must let
it be granted; a refused access sets FLT with its kind and address, suspends the partition and is recorded, and nothing
else happens, whichever command makes it. A partition that is suspended, or held by a fence, makes none (R33, R34, R36,
R38, R307, R360). -/
def Obligations.PartitionAccessesAreJudged : Prop :=
  ∀ (s : State) (k : Access) (a : BitVec 24),
    let covers (r : Nat) : Prop := (s.core.frgt.getD r 0).getLsbD 3 = true
      ∧ (s.core.fbase.getD r 0).toNat ≤ a.toNat / 64 ∧ a.toNat / 64 ≤ (s.core.flim.getD r 0).toNat
    let refused (t : State) : Prop := ∃ kind : BitVec 3, Recorded { s with core := { s.core with
        flt := true, fkind := kind, pfa := a, part := 1, faultTide := s.now, partFkind := kind, partAddr := a, fenceReg := none } } t
      ∧ ((∃ r, r < 8 ∧ covers r) → kind = BitVec.ofNat 3 (rightBit k)) ∧ ((∀ r, r < 8 → ¬ covers r) → kind = 3)
    let acts := s.runs .A = true ∧ s.core.part = 0 ∧ s.core.fenceReg = none
    (allowed s k a.toNat = true ↔ ∃ r, r < 8 ∧ covers r ∧ (∀ q, q < r → ¬ covers q)
        ∧ (s.core.frgt.getD r 0).getLsbD (rightBit k) = true ∧ grantable k a.toNat = true)
    ∧ (¬ acts → exec (.partitionAccessFault k a) s = .next s)
    ∧ (allowed s k a.toNat = true → exec (.partitionAccessFault k a) s = .next s)
    ∧ (acts → allowed s k a.toNat = false → ∃ t, exec (.partitionAccessFault k a) s = .next t ∧ refused t)
    ∧ (acts → allowed s k a.toNat = false → ∀ op, busKind op = k →
        exec (.registerWrite .part a op) s = exec (.partitionAccessFault k a) s)
    ∧ (acts → allowed s .write 0o77200002 = false →
        exec .svcPostLocal s = exec (.partitionAccessFault .write 0o77200002) s
        ∧ exec .svcPostPeer s = exec (.partitionAccessFault .write 0o77200002) s)
    ∧ (acts → allowed s .write 0o77027001 = false → ∀ v,
        exec (.classNWrite .part v) s = exec (.partitionAccessFault .write 0o77027001) s)

/-- A word written to memory reads back, its row holds a codeword again, and every other word stays; the banks, the
section 2 words, the records and the state copies take the word where they hold it, but for a provisional word that EVA
keeps from the committed bank with source 28. A read gives the word, through one flipped cell too, which it corrects; an
uncorrectable word gives a bus error and its source, and an address that nothing answers to a bus error alone (R20, R31,
R34, R42, R157). -/
def Obligations.MemoryWritesReadBack : Prop :=
  ∀ (s : State) (ring : Ring) (a : BitVec 24), Shaped s → StoresWf s → ringRuns s ring = true →
    let n := a.toNat
    let quiet : CoreSt := { s.core with busErr := false }
    let bank := n ≤ 0o00777777 ∨ (0o15000000 ≤ n ∧ n ≤ 0o15777777)
    let decl := 0o20000000 ≤ n ∧ n ≤ 0o22777777
    let window := (0o77000000 ≤ n ∧ n ≤ 0o77217777) ∨ (0o77400000 ≤ n ∧ n ≤ 0o77407777)
    let rows := if s.rows = [] then [] else cellSet 0 s.rows n 0
    (∀ v, ringMay s ring .write n = true →
      let c := Instr.registerWrite ring a (.write v)
      (isRam n = true → ¬ bank → ¬ decl → areaWord s n = none → ∃ t, exec c s = .next t ∧ memGet t n = some v
          ∧ (∀ b, b ≠ n → memGet t b = memGet s b) ∧ t.rowMask .A n = 0
          ∧ (∀ b, b ≠ n → cellGet 0 t.rows b = cellGet 0 s.rows b) ∧ StoresWf t
          ∧ t = { s with mem := t.mem, rows := t.rows, core := quiet })
      ∧ (∀ k w, areaWord s n = some (.record k w) → exec c s = .next { s with
          eva := { s.eva with batches := batchSet s.eva.batches k w v }, rows := rows, core := quiet })
      ∧ (∀ k old j, areaWord s n = some (.state k old j) → ∃ x, exec c s = .next { s with
          a := if old then { s.a with inst := listMod s.a.inst k fun _ => x }
            else { s.a with shadow := listMod s.a.shadow k fun _ => x },
          rows := rows, core := quiet })
      ∧ (decl → ∃ net, exec c s = .next { s with a := { s.a with net := net }, rows := rows, core := quiet }
          ∧ (s.a.net = none → net = none)
          ∧ ∀ m, s.a.net = some m →
            let k := (n - 0o20000000) / 3
            let d := m.decl k
            net = some { m with decls := cellSet Decl.undeclared m.decls k (match (n - 0o20000000) % 3 with
              | 0 => { d with w0 := v }
              | 1 => { d with w1 := v }
              | _ => { d with w2 := v }) })
      ∧ (n ≤ 0o00777777 → qOf v ≠ 1 → exec c s = .next { s with
          a := { s.a with committed := bankSet s.a.committed n v }, rows := rows, core := quiet })
      ∧ (n ≤ 0o00777777 → qOf v = 1 → ∃ t, exec c s = .next t ∧ Fires { s with core := quiet } t 28)
      ∧ (0o15000000 ≤ n → n ≤ 0o15777777 → exec c s = .next { s with
          a := { s.a with working := bankSet s.a.working (n - 0o15000000) v }, rows := rows, core := quiet })
      ∧ (isRam n = false → ¬ window → exec c s = .next { s with core := { s.core with busErr := true } }))
    ∧ (ringMay s ring .read n = true → ¬ window →
      let c := Instr.registerWrite ring a .read
      (∀ w, memGet s n = some w →
        (s.rowMask .A n = 0 → exec c s = .next (s.busReturns w))
        ∧ (∀ j : Fin 24, s.rowMask .A n = 1 <<< j.val →
            exec c s = .next ({ s with rows := cellSet 0 s.rows n 0 }.busReturns w))
        ∧ (s.rowMask .A n ≠ 0 → s.rowUse .A n w = none → ∃ t, exec c s = .next t
            ∧ Fires { s with core := { s.core with busErr := true } } t (rowSource s .A n).1))
      ∧ (memGet s n = none ↔ isRam n = false)
      ∧ (memGet s n = none → exec c s = .next { s with core := { s.core with busErr := true } }))

/-- A register takes what its access code lets a write set; a block in reset ignores writes. NW_VAL takes a class-N value
for this tide, or from intake close on for the next, and refuses a point that is not declared or not partition-sourced
with its code and source 23. TIDE.PERIOD takes 1, 2 and 4 from the next tide on, EVA.CTRL bit 0, and a block's CLEAR acts
as the CLEAR command (R12, R37, R45, R75, R180, R181, R237, R265, R316, R398). -/
def Obligations.RegisterWritesTakeEffect : Prop :=
  ∀ (s : State) (v : Word), Shaped s →
    let quiet : CoreSt := { s.core with busErr := false }
    let put (a : Nat) : Instr := .registerWrite .exec (BitVec.ofNat 24 a) (.write v)
    (∀ ring a op, ringRuns s ring = false → exec (.registerWrite ring a op) s = .next s ∧ exec (.classNWrite ring v) s = .next s)
    ∧ (s.runs .A = false → exec (.runAheadEnableWrite v) s = .next s ∧ exec (.tidePeriodRegisterWrite v) s = .next s)
    ∧ (∀ ring, ringRuns s ring = true → ringMay s ring .write 0o77027001 = true →
        let p := s.eva.nwIdx.toNat
        let c := Instr.classNWrite ring v
        let placed (l : List (Nat × BitVec 12)) := (l.filter fun x => x.1 ≠ p) ++ [(p, v.setWidth 12)]
        (s.netA.declared p = false → ∃ t, exec c s = .next t ∧ Fires { s with eva := { s.eva with nwRes := 3 } } t 23)
        ∧ (s.netA.declared p = true → s.netA.partSourced p = false →
            ∃ t, exec c s = .next t ∧ Fires { s with eva := { s.eva with nwRes := 2 } } t 23)
        ∧ (s.netA.declared p = true → s.netA.partSourced p = true → s.tide.ph = 0 → exec c s = .next { s with
            eva := { s.eva with nwRes := 1, nwNext := false, nwThis := placed s.eva.nwThis } })
        ∧ (s.netA.declared p = true → s.netA.partSourced p = true → s.tide.ph ≠ 0 → exec c s = .next { s with
            eva := { s.eva with nwRes := 1, nwNext := true, nwLater := placed s.eva.nwLater } }))
    ∧ (s.runs .A = true →
        let p : BitVec 3 := v.setWidth 3
        let ctrl : State := { s with eva := { s.eva with raen := v.getLsbD 0 } }
        let period : State := if p = 1 ∨ p = 2 ∨ p = 4 then
          { s with tide := { s.tide with perNext := some (p, tideAdd s.now 1) } } else s
        exec (.runAheadEnableWrite v) s = .next ctrl ∧ exec (.tidePeriodRegisterWrite v) s = .next period
        ∧ exec (put 0o77020000) s = .next { ctrl with core := quiet }
        ∧ exec (put 0o77000000) s = .next { period with core := quiet }
        ∧ exec (put 0o77400000) s = .next { s with core := { quiet with flt := s.core.flt && !v.getLsbD 1 } }
        ∧ (∀ n : Fin 8, exec (put (0o77400100 + 4 * n.val)) s = .next { s with core := { quiet with
            pend := true, pbase := listMod s.core.pbase n.val fun _ => v } })
        ∧ (∀ n : Fin 4, s.unitDown (.fpe n) = true → ∀ o, o < 0o10000 →
            exec (put (0o77030000 + 0o10000 * n.val + o)) s = .next { s with core := quiet })
        ∧ (∀ n : Fin 4, s.unitDown (.fpe n) = false → ∃ t, exec (put (0o77030003 + 0o10000 * n.val)) s = .next t
            ∧ t.port n.val = { s.port n.val with oot := v } ∧ (∀ m : Fin 4, m ≠ n → t.port m.val = s.port m.val)
            ∧ t = { s with ports := t.ports, core := quiet })
        ∧ exec (put 0o77070006) s = .next { s with twin := { s.twin with mirMiss := v }, core := quiet }
        ∧ (∃ found u, exec (.eventClear 0 (v.setWidth 16) found) { s with draws := s.draws + 1 } = .next u
            ∧ exec (put 0o77006010) s = .next { u with core := quiet })
        ∧ ∃ t, exec (put 0o77006001) s = .next t ∧ t.evOf 0 = { s.evOf 0 with mask := v.setWidth 16 }
            ∧ (∀ b, b ≠ 0 → t.evOf b = s.evOf b) ∧ t = { s with ev := t.ev, core := quiet })

/-- A post that the partition's regions allow hands the message of TXOFF and TXLEN to this unit's service or to the
peer's, and a posted REQUEST is followed; a post that names no message sets TXERR. The oldest message of a path for the
partition is written into the ring, two octets to a word behind its length, or dropped with RXOVR where the ring is full;
the words around it stay. A RESPONSE settles the posted request that it answers on its path, and a dropped one gives it up
(R295 to R297, R360). FENCE.MEM of the executive brings the written regions into force. FENCE.DICT waits until every
posted request is settled, and then, where the partition is not suspended, gives 0, or 1 where one was given up; an
interrupt or a fault abandons it. FENCE.PORT completes, stores being visible at once in this model (log 13). A kept value
is written as a new settings copy over the older one, with the next sequence number (R35, R272, R315, R358 to R361). -/
def Obligations.PostsFencesAndSettingsStore : Prop :=
  (∀ (s : State), StoresWf s →
    (∀ peer : Bool, allowed s .write 0o77200002 = true →
      let c := if peer then Instr.svcPostPeer else .svcPostLocal
      let followed (m : Octets) : SvcSt := { s.svc with posted := s.svc.posted ++
        (if field m 0 1 = 0x12 ∧ 36 ≤ m.length then [{
          path := peer, ses := BitVec.ofNat 3 (field m 1 1 / 16), rid := BitVec.ofNat 4 (field m 9 1),
          rn := BitVec.ofNat 16 (field m 10 2), since := s.now, ift := none, gaveUp := false }] else []) }
      (ringRuns s .part = false ∨ s.unitDown .svc = true → exec c s = .next s)
      ∧ (ringRuns s .part = true → s.unitDown .svc = false → postedMessage s = none →
          exec c s = .next { s with svc := { s.svc with txerr := true } })
      ∧ (∀ m, ringRuns s .part = true → s.unitDown .svc = false → postedMessage s = some m →
          (peer = false → exec c s = .next (receive { s with svc := followed m } .own m none))
          ∧ (peer = true → exec c s = .next { s with svc := { followed m with
              outQ := s.svc.outQ ++ [{ dest := .peer (!s.unitBit), octets := m, note := none }] } })))
    ∧ (∀ peer, (∀ x ∈ s.svc.ringIn, x.1 ≠ peer) → exec (.svcMessageReceived peer) s = .next s)
    ∧ (∀ (peer : Bool) (msg : Octets) (front back : List (Bool × Octets)), s.svc.ringIn = front ++ (peer, msg) :: back →
       (∀ x ∈ front, x.1 ≠ peer) →
       let q := front ++ back
       let v := s.svc
       let ws := ringWords msg
       let idle := s.runs .A = false ∨ s.unitDown .svc = true ∨ v.rxsize = 0
       let full := v.rxsize.toNat ≤ ringUsed v + ws.length
       let answers (p : Posted) : Bool := decide (field msg 0 1 = 0x13 ∧ 47 ≤ msg.length ∧ p.path = peer
         ∧ p.ses = BitVec.ofNat 3 (field msg 1 1 / 16) ∧ p.rid = BitVec.ofNat 4 (field msg 9 1)
         ∧ p.rn = BitVec.ofNat 16 (field msg 10 2) ∧ p.ift = none ∧ p.gaveUp = false
         ∧ reached s.now (tideAdd p.since 8192) = false)
       let tx : Tide := BitVec.ofNat 36 (field msg 19 5)
       let ift : Tide := BitVec.ofNat 36 (field msg 24 5)
       let from0 := if later ift tx then ift else s.now
       (idle → exec (.svcMessageReceived peer) s = .next { s with svc := { v with ringIn := q } })
       ∧ (¬ idle → full → exec (.svcMessageReceived peer) s = .next { s with svc := { v with
          ringIn := q, rxovr := true, posted := v.posted.map fun p => if answers p then { p with gaveUp := true } else p } })
       ∧ (¬ idle → ¬ full → ∃ t, exec (.svcMessageReceived peer) s = .next t
          ∧ t = { s with mem := t.mem, rows := t.rows, svc := { v with
              ringIn := q, rxhead := t.svc.rxhead,
              posted := v.posted.map fun p => if answers p then { p with ift := some from0 } else p } }
          ∧ (∀ x, cellGet 0 t.rows x = if ∃ i, i < ws.length ∧ x = ringAddr v (v.rxhead.toNat + i) then 0
              else cellGet 0 s.rows x)
          ∧ t.svc.rxhead.toNat = (v.rxhead.toNat + ws.length) % v.rxsize.toNat
          ∧ (∀ i, i < ws.length → cellGet 0 t.mem (ringAddr v (v.rxhead.toNat + i)) = ws.getD i 0)
          ∧ ∀ a, (∀ i, i < ws.length → a ≠ ringAddr v (v.rxhead.toNat + i)) → cellGet 0 t.mem a = cellGet 0 s.mem a)))
  ∧ (∀ (s : State) (reg : BitVec 8), StoresWf s →
    (s.runs .A = true → exec (.fenceMem .exec) s = .next { s with core := { s.core with
        fbase := s.core.pbase, flim := s.core.plim, frgt := s.core.prgt, pend := false } })
    ∧ (s.runs .A = false → exec (.fenceMem .exec) s = .next s)
    ∧ exec (.fenceMem .part) s = .next s
    ∧ exec .fencePort s = .next s
    ∧ (ringRuns s .part = true → exec (.fenceDict reg) s = .next { s with core := { s.core with fenceReg := some reg } })
    ∧ (ringRuns s .part = false → exec (.fenceDict reg) s = .next s)
    ∧ exec .partitionInterrupt s = .next { s with core := { s.core with fenceReg := none } }
    ∧ (let lost (p : Posted) : Prop := p.gaveUp = true ∨ (p.ift = none ∧ reached s.now (tideAdd p.since 8192) = true)
       let done := ∀ p ∈ s.svc.posted, lost p ∨ ∃ t, p.ift = some t ∧ reached s.now t = true
       let acts := s.runs .A = true ∧ s.core.part = 0
       (s.core.fenceReg = none ∨ ¬ acts ∨ ¬ done → exec .fenceDictSettled s = .next s)
       ∧ (∀ r, s.core.fenceReg = some r → acts → done → ∃ v : Word, ((∃ p ∈ s.svc.posted, lost p) → v = 1)
          ∧ ((∀ p ∈ s.svc.posted, ¬ lost p) → v = 0)
          ∧ exec .fenceDictSettled s = .next { s with
              core := { s.core with fenceReg := none, gpr := cellSet 0 s.core.gpr r.toNat v },
              svc := { s.svc with posted := [] } }))
    ∧ (s.dict.keptSince = none ∨ s.runs .A = false → exec .settingsStoreWrite s = .next s)
    ∧ (s.dict.keptSince ≠ none → s.runs .A = true → ∃ t, exec .settingsStoreWrite s = .next t
        ∧ (let base := storeAt (if storeUsed s.norA = some 0 then 1 else 0)
           let seq := ((storeUsed s.norA).map fun j => storeSeqOf s.norA j + 1).getD 1
           let copy := storeCopy s seq
           (∀ j, j < copy.length → norGet t.norA (base + j) = copy.getD j 0)
           ∧ (∀ a, a < base ∨ base + copy.length ≤ a → norGet t.norA a = norGet s.norA a)
           ∧ cellWf 0xFF t.norA = true
           ∧ t = { s with
              norA := t.norA, dict := { s.dict with keptSince := none, storeSeq := BitVec.ofNat 36 seq } })))

/-- Every fuse command completes, from the FUS registers or the entry: READ gives its word, another one starts to burn
what its plan names, or ends refused with the reason of R379; it is ignored while FUS is busy. Burning needs both dies
Moored or in Bench and the die within reach. Region 0 takes no PROGRAM, SEAL, WLOCK or RLOCK, a write-locked region no
PROGRAM or SEAL, neither clears a bit that reads 1, WLOCK needs a valid seal without weak bits, MAP a locked sealed region
and a free entry, REBURN a weak bit that is meant to be 1. From the entry a burn leaves its request waiting, and any other
outcome answers it (R371, R375, R376, R378, R379, R380). -/
def Obligations.FuseCommandsReadOrBurn : Prop :=
  (∀ (s : State) (op : Nat) (cmd : FuseVia → Instr), (op, cmd) ∈ [(1, Instr.fuseProgram), (2, .fuseSeal), (3, .fuseWlock),
      (4, .fuseRlock), (5, .fuseMap), (6, .fuseReburn), (7, .fuseRead)] →
    let interlock := s.runs .A = true ∧ s.runs .B = true ∧ moduleMoored s = true
    let ends (res : BitVec 3) (reason : BitVec 4) (data : Word) : State := { s with fus := { s.fus with
      busy := false, res := res, pulses := 0, reason := reason, burn := none, pdata := data } }
    let effect (d : Die) (r j b : Nat) (value : Word) (via : FuseVia) : State :=
      let v := (s.fus.of d).present
      if s.runs .A = false ∨ s.runs d = false then ends 2 9 s.fus.pdata
      else if op = 7 then ends 1 0 (if v.rlock r then 0 else v.word r j)
      else if ¬ interlock then ends 2 1 s.fus.pdata
      else match burnPlan v op r j b value with
        | .error e => ends 2 (BitVec.ofNat 4 e) s.fus.pdata
        | .ok ws => { s with fus := { s.fus with
            busy := true, res := 0, pulses := 0, reason := 0,
            burn := some { die := d, op := BitVec.ofNat 3 op, words := ws, via := via } } }
    (s.runs .A = true → s.fus.busy = false → exec (cmd .regs) s = .next (effect
        (if s.fus.paddr.getLsbD 17 then .B else .A) (fld s.fus.paddr 13 9) (fld s.fus.paddr 8 5) (fld s.fus.paddr 4 0)
        s.fus.pdata .regs))
    ∧ (s.runs .A = false ∨ s.fus.busy = true → exec (cmd .regs) s = .next s)
    ∧ ∀ (k : Fin 8) (r : Fin 16) (sl : Slot), s.lasts k = true → s.mayWriteNow k r 0o076020 sl = true →
        let d := sl.req.data
        let s1 := effect (if field d 1 1 = 0 then .A else .B) (field d 2 1) (field d 3 1) (field d 4 1)
          (BitVec.ofNat 18 (field d 5 3)) (.entry k r)
        let asked := some (s.sesLevel k.val, s.sesPath k.val, sl.req)
        field d 0 1 = op →
        (s.fus.busy = true → exec (cmd (.entry k r)) s = .next s)
        ∧ (s.fus.busy = false → programForm d = false → Responds (cmd (.entry k r)) s k r sl.req 8 [])
        ∧ (s.fus.busy = false → programForm d = true → s1.fus.busy = true → ∃ t, exec (cmd (.entry k r)) s = .next t
            ∧ t.slot k.val r.val = some { sl with st := .burning s.now } ∧ (∀ j : Fin 8, j ≠ k → t.ses j.val = s.ses j.val)
            ∧ t = { s1 with
                fus := { s1.fus with burn := s1.fus.burn.map fun x => { x with asked := asked } },
                svc := { s.svc with ses := t.svc.ses } })
        ∧ (s.fus.busy = false → programForm d = true → s1.fus.busy = false → ∃ t, exec (cmd (.entry k r)) s = .next t
            ∧ Answers { s1 with fus := { s1.fus with entRes :=
                [BitVec.ofNat 8 s1.fus.res.toNat, 0, BitVec.ofNat 8 s1.fus.reason.toNat] } } t
            ∧ t.responds k r sl.req (if s1.fus.res = 1 then 0 else 8) []))
  ∧ ∀ (v : FuseView) (r j b : Nat) (value : Word) (ws : List (Nat × Word)),
    let need (w : Nat) (x : Word) : Nat × Word := (w, x &&& ~~~ v.low w)
    let keeps (w : Nat) (x : Word) : Prop := v.reads w &&& ~~~ x = 0
    let locked (b1 b2 : Nat) : List (Nat × Word) :=
      let bit : Word := BitVec.ofNat 18 (2 ^ (r % 16))
      [b1 + (if r < 16 then 0 else 1), b2 + (if r < 16 then 0 else 1)].map fun w => need w (bit ||| v.low w)
    let sw := sealWords v r (if 24 ≤ r then fld value 8 4 else r) (fld value 3 0)
    (burnPlan v 1 r j b value = .ok ws ↔ r ≠ 0 ∧ v.wlock r = false ∧ v.reads (16 * r + 14) = 0 ∧ v.reads (16 * r + 15) = 0
      ∧ keeps (16 * r + j) value ∧ ws = [need (16 * r + j) value])
    ∧ (burnPlan v 2 r j b value = .ok ws ↔ r ≠ 0 ∧ v.wlock r = false ∧ keeps (16 * r + 14) sw.1
      ∧ keeps (16 * r + 15) sw.2 ∧ ws = [need (16 * r + 14) sw.1, need (16 * r + 15) sw.2])
    ∧ (burnPlan v 3 r j b value = .ok ws ↔ r ≠ 0 ∧ v.weakBits r = []
      ∧ (if r < 24 then sealFits (v.trial r 0) r = true else ∃ l, 1 ≤ l ∧ l ≤ 23 ∧ sealFits (v.trial r 0) l = true)
      ∧ ws = locked 0 4)
    ∧ (burnPlan v 4 r j b value = .ok ws ↔ r ≠ 0 ∧ ws = locked 2 6)
    ∧ (burnPlan v 5 r j b value = .ok ws ↔
      let lreg := fld value 4 0
      let w := (r - 24) / 2
      let entry := 128 + lreg
      let bits : Word := BitVec.ofNat 18 (if (r - 24) % 2 = 0 then entry * 256 else entry)
      24 ≤ r ∧ 1 ≤ lreg ∧ lreg ≤ 23 ∧ v.wlock r = true ∧ (v.sealed r lreg).isSome = true
      ∧ (∀ copy ∈ [8, 12], v.mapByte copy (r - 24) = 0 ∨ v.mapByte copy (r - 24) = entry)
      ∧ ws = [8 + w, 12 + w].map fun x => need x (bits ||| v.low x))
    ∧ (burnPlan v 6 r j b value = .ok ws ↔ b ≤ 17 ∧ (v.weakOf (16 * r + j)).getLsbD b = true
      ∧ v.intended r j b = some true ∧ ws = [(16 * r + j, BitVec.ofNat 18 (2 ^ b))])

/-- FUSE_COMMAND_DONE completes the burn that runs: one that ends well has set exactly its bits at both references and
taken their marks away, one that fails leaves its word's bits as they read, one that a reset cut off ends in verify
failure; the request that waits for it is answered. A burn that is cut off leaves bits of its own alone. FUSE_RESENSE,
once in the guard phase of a tide from state Running onwards, reads eight words of each die that runs and does not burn,
marks the bits that differ between the references or from a clean shadow, and fires source 126 or 47 for a new mark.
FUSE_OVERRIDE_CLEAR waits for the boundary (R369, R370, R374, R375, R377, R379, R380, R398). -/
def Obligations.FuseBurnsEndAndBitsAreResensed : Prop :=
  ∀ (s : State), Shaped s → (∀ d, cellWf 0 (s.fus.of d).lo = true ∧ cellWf 0 (s.fus.of d).hi = true
      ∧ cellWf 0 (s.fus.of d).weak = true) →
    let bit (l : List (Nat × Word)) (w : Nat) (i : Fin 18) : Bool := (cellGet 0 l w).getLsbD i.val
    (∀ (pulses : BitVec 6) (ok : Bool) (lo hi : Word),
      let c := Instr.fuseCommandDone pulses ok lo hi
      (s.fus.burn = none → exec c s = .next s)
      ∧ ∀ x, s.fus.burn = some x → ∃ t s1, exec c s = .next t
          ∧ (let f := s.fus.of x.die
            let g := s1.fus.of x.die
            let head := x.words.headD (0, 0)
            let burned (w : Nat) (i : Fin 18) : Prop := ∃ y ∈ x.words, y.1 = w ∧ y.2.getLsbD i.val = true
            let tried (w : Nat) (i : Fin 18) : Prop := head.1 = w ∧ head.2.getLsbD i.val = true
            s1 = { s with fus := s1.fus } ∧ s1.fus.of (Die.other x.die) = s.fus.of (Die.other x.die)
            ∧ g = { f with lo := g.lo, hi := g.hi, weak := g.weak }
            ∧ s1.fus.busy = false ∧ s1.fus.burn = none ∧ s1.fus.pulses = pulses ∧ s1.fus.reason = 0
            ∧ s1.fus.res = (if ok && !x.cut then 1 else 3)
            ∧ (x.cut = true → g = f)
            ∧ (x.cut = false → ok = true → ∀ w i, (bit g.lo w i = true ↔ bit f.lo w i = true ∨ burned w i)
                ∧ (bit g.hi w i = true ↔ bit f.hi w i = true ∨ burned w i)
                ∧ (bit g.weak w i = true ↔ bit f.weak w i = true ∧ ¬ burned w i))
            ∧ (x.cut = false → ok = false → ∀ w i,
                (bit g.lo w i = true ↔ bit f.lo w i = true ∨ (tried w i ∧ lo.getLsbD i.val = true))
                ∧ (bit g.hi w i = true ↔ bit f.hi w i = true ∨ (tried w i ∧ hi.getLsbD i.val = true))))
          ∧ (match x.via with
            | .regs => t = s1
            | .entry k r => Answers { s1 with fus := { s1.fus with entRes :=
                  [BitVec.ofNat 8 s1.fus.res.toNat, BitVec.ofNat 8 pulses.toNat, 0] } } t
                ∧ ∀ sl tx, s.slot k.val r.val = some sl → sl.st = .burning tx → s.lasts k = true →
                  ∃ y, t.slot k.val r.val = some y ∧ y.st = .done
                    ∧ y.resp = respBody sl.req (if x.cut then 10 else if ok then 0 else 8) tx s.now []))
    ∧ (s.fus.burn = none → burnCut s = s)
    ∧ (∀ x, s.fus.burn = some x →
        let t := burnCut s
        let f := s.fus.of x.die
        let g := t.fus.of x.die
        t = { s with draws := s.draws + 1, fus := t.fus } ∧ t.fus.burn = some { x with words := [], cut := true }
        ∧ t.fus.of (Die.other x.die) = s.fus.of (Die.other x.die) ∧ g = { f with lo := g.lo }
        ∧ ∀ w i, (bit f.lo w i = true → bit g.lo w i = true)
          ∧ (bit g.lo w i = true → bit f.lo w i = true ∨ ∃ y ∈ x.words, y.1 = w ∧ y.2.getLsbD i.val = true))
    ∧ (∀ (ra rb : List (Word × Word)),
      let may := s.fus.ran = true ∧ s.tide.ph = 5 ∧ s.fus.doneAt ≠ some s.now ∧ s.pws.hold = false
      (¬ may → exec (.fuseResense ra rb) s = .next s)
      ∧ (may →
          let part (d : Die) (rs : List (Word × Word)) : FuseDie × Bool :=
            if s.runs d = true ∧ (s.fus.burn.map fun x => x.die) ≠ some d then resenseDie (s.fus.of d) s.now rs
            else (s.fus.of d, false)
          let s1 : State := { s with fus := { s.fus with
            a := (part .A ra).1, b := (part .B rb).1, doneAt := some s.now } }
          ∃ t s2, exec (.fuseResense ra rb) s = .next t ∧ FiresIf (part .A ra).2 s1 s2 126
            ∧ FiresIf (part .B rb).2 s2 t 47))
    ∧ (∀ (f : FuseDie) (now : Tide) (rs : List (Word × Word)),
        let wait := f.pos = 0 ∧ later f.passAt now = true
        (wait → resenseDie f now rs = (f, false))
        ∧ (¬ wait → (resenseDie f now rs).1.pos = (if 512 ≤ f.pos + 8 then 0 else f.pos + 8)))
    ∧ (∀ (d : Die) (w : Nat) (lo hi : Word) (i : Fin 18),
        let f := s.fus.of d
        let x := resenseWord f w lo hi
        (bit x.1.weak w i = true ↔ lo.getLsbD i.val ≠ hi.getLsbD i.val
          ∨ (bit f.shLo w i = bit f.shHi w i ∧ lo.getLsbD i.val ≠ bit f.shLo w i))
        ∧ (x.2 = true ↔ ∃ n : Fin 18, bit x.1.weak w n = true ∧ bit f.weak w n = false)
        ∧ x.1 = { f with lo := x.1.lo, hi := x.1.hi, weak := x.1.weak })
    ∧ (let clear (f : FuseDie) : FuseDie := { f with ovrClear := true, ovrNext := [] }
       (s.runs .A = true → exec (.fuseOverrideClear .regs) s = .next { s with fus := { s.fus with a := clear s.fus.a } })
       ∧ (s.runs .A = false → exec (.fuseOverrideClear .regs) s = .next s)
       ∧ ∀ (k : Fin 8) (r : Fin 16) (sl : Slot), s.lasts k = true → s.mayWriteNow k r 0o076011 sl = true →
          (ofBe sl.req.data = 1 → Executes (.fuseOverrideClear (.entry k r)) s k r sl
            { s with fus := { s.fus with a := clear s.fus.a, b := clear s.fus.b } } (tideAdd s.now 1))
          ∧ (ofBe sl.req.data ≠ 1 → Responds (.fuseOverrideClear (.entry k r)) s k r sl.req 8 []))

/-- The majority of the five reads is what a pulse check sees. After the pulse an input of the pulsed feed that was not
dark fires source 95, one of another feed that went dark and came back source 96, and every input of its feed is flagged;
two tides in a row in which every flagged input of the feed passes clear its flags. An overload of T_n fires source 110 or
111 and flags its feed, one of SENS fires source 112 (R190, R191, R200, R204). A read-back against the combined command of
an output, or a difference between the two read-backs, that lasts five samples outside switching time and tests fires
source 100, 101 or 102. Three lost transfers in a row take the command link down with source 99, and a transfer brings it
up, a choice of the model (log 88); the switching time of the commands that change then starts. An overload opens both
switches of its output, latches it and fires source 105 (R193, R194). An output test that its read-back confirms passes;
one that does not by its time-out, or whose output does not return, fails: a dark test fires source 103, sets QFLT and
opens the other switch until the CLEAR, a bright one fires source 104. At its end it is gone, and a dark test that passed
counts for its switch. A command that is withdrawn ends it as aborted with source 106; a repetition that was aborted stays
due (log 88). Without a test on the output nothing happens (R196 to R199, R203, R206). -/
def Obligations.LocalIoChecksAndTests : Prop :=
  (∀ (s : State) (ra rb : List (BitVec 32)), Shaped s →
    (∃ t, exec (.pulseCheck ra rb) s = .next t
      ∧ t = { s with lio := { s.lio with pulseA := t.lio.pulseA, pulseB := t.lio.pulseB, tpgAct := 0 } }
      ∧ ∀ i : Fin 32, (t.lio.pulseA.getLsbD i.val = true ↔ 3 ≤ (ra.filter fun x => x.getLsbD i.val).length)
        ∧ (t.lio.pulseB.getLsbD i.val = true ↔ 3 ≤ (rb.filter fun x => x.getLsbD i.val).length))
    ∧ (s.lio.pulse = none → exec (.afterCheck ra rb) s = .next s)
    ∧ (∀ f : Nat, f < 8 → s.lio.pulse = some f → s.lio.feedPass.length = 8 →
        let l := s.lio
        let a := majority ra
        let b := majority rb
        let used (i : Fin 32) : Prop := (s.netA.inPoint i.val).isSome
        let bright (i : Fin 32) : Prop := used i ∧ s.netA.inFeed i.val = f
          ∧ ((l.inA.getLsbD i.val = true ∧ l.pulseA.getLsbD i.val = true)
            ∨ (l.inB.getLsbD i.val = true ∧ l.pulseB.getLsbD i.val = true))
        let dark (i : Fin 32) : Prop := used i ∧ s.netA.inFeed i.val ≠ f
          ∧ ((l.inA.getLsbD i.val = true ∧ l.pulseA.getLsbD i.val = false ∧ a.getLsbD i.val = true)
            ∨ (l.inB.getLsbD i.val = true ∧ l.pulseB.getLsbD i.val = false ∧ b.getLsbD i.val = true))
        let clean := ∀ i, ¬ bright i ∧ ¬ dark i
        let passes (i : Fin 32) : Prop := l.inA.getLsbD i.val = true ∧ l.pulseA.getLsbD i.val = false ∧ a.getLsbD i.val = true
          ∧ l.inB.getLsbD i.val = true ∧ l.pulseB.getLsbD i.val = false ∧ b.getLsbD i.val = true
        let flagged (i : Fin 32) : Prop := l.fltNext.getLsbD i.val = true ∧ used i ∧ s.netA.inFeed i.val = f
        ∃ t, exec (.afterCheck ra rb) s = .next t ∧ Reacts { s with lio := t.lio } t
          ∧ (∃ m, ReactsLio s.tide.running l m
              ∧ t.lio = { m with pulse := none, feedPass := t.lio.feedPass, fltNext := t.lio.fltNext })
          ∧ (∀ i, bright i → s.runs .A = true → t.fired 95 = true)
          ∧ (∀ i, dark i → s.runs .A = true → t.fired 96 = true)
          ∧ (∀ i j, bright i ∨ dark i → used j → s.netA.inFeed j.val = s.netA.inFeed i.val →
              t.lio.fltNext.getLsbD j.val = true)
          ∧ (clean → t = { s with lio := t.lio })
          ∧ (clean → (∀ i, flagged i → passes i) → (∃ i, flagged i) → l.feedPass.getD f 0 = 1 →
              ∀ i : Fin 32, t.lio.fltNext.getLsbD i.val = true ↔ l.fltNext.getLsbD i.val = true ∧ ¬ flagged i)
          ∧ (clean → (∀ i, flagged i → passes i) → (∃ i, flagged i) → l.feedPass.getD f 0 = 0 →
              t.lio.feedPass.getD f 0 = 1 ∧ t.lio.fltNext = l.fltNext)
          ∧ (clean → (∃ i, flagged i ∧ ¬ passes i) → t.lio.feedPass.getD f 0 = 0 ∧ t.lio.fltNext = l.fltNext))
    ∧ (∀ (n : Fin 8) (stuck : Bool), ∃ t, exec (.testFeedOverload n stuck) s = .next t ∧ Reacts { s with lio := t.lio } t
        ∧ (s.runs .A = true → t.fired (if stuck then 111 else 110) = true)
        ∧ (∀ i : Fin 32, (s.netA.inPoint i.val).isSome → s.netA.inFeed i.val = n.val → t.lio.fltNext.getLsbD i.val = true)
        ∧ (∃ m, ReactsLio s.tide.running s.lio m
            ∧ t.lio = { m with tpgOvl := t.lio.tpgOvl, fltNext := t.lio.fltNext, feedPass := t.lio.feedPass })
        ∧ ∀ m : Fin 8, t.lio.tpgOvl.getLsbD m.val = (s.lio.tpgOvl.getLsbD m.val || (!stuck && decide (m = n))))
    ∧ ∃ t, exec .sensOverload s = .next t ∧ Fires s t 112)
  ∧ (∀ (s : State), Shaped s →
    let link (down : Bool) (lost : Nat) : LioSt := { s.lio with
      linkLost := lost, linkDown := down,
      switching := (List.range 16).map fun q =>
        if s.lio.linkDown = down ∨ (s.lio.cmdA ||| s.lio.cmdB).getLsbD q = false then s.lio.switching.getD q 0 else 10 }
    (∀ ra rb : BitVec 16,
      let l := s.lio
      let idle (q : Nat) : Bool := l.switching.getD q 0 = 0 && !l.testing q
      let count (old : List Nat) (bad : Nat → Bool) (q : Nat) : Nat :=
        if idle q then (if bad q then min (old.getD q 0 + 1) 5 else 0) else 0
      let mayOff (q : Nat) : Bool := l.combined q && !l.qovl.getLsbD q && !l.underV q
      let onA := count l.onAgainst fun q => ra.getLsbD q && !l.combined q
      let onB := count l.onAgainstB fun q => rb.getLsbD q && !l.combined q
      let offA := count l.offAgainst fun q => !ra.getLsbD q && mayOff q
      let offB := count l.offAgainstB fun q => !rb.getLsbD q && mayOff q
      let sp := count l.split fun q => ra.getLsbD q != rb.getLsbD q
      let hit (old : List Nat) (new : Nat → Nat) (q : Fin 16) : Prop := new q.val = 5 ∧ old.getD q.val 0 ≠ 5
      let s1 : State := { s with lio := { l with
        rbA := ra, rbB := rb, onAgainst := (List.range 16).map onA, onAgainstB := (List.range 16).map onB,
        offAgainst := (List.range 16).map offA, offAgainstB := (List.range 16).map offB, split := (List.range 16).map sp,
        switching := l.switching.map (· - 1) } }
      ∃ t, exec (.readbackSample ra rb) s = .next t ∧ Reacts s1 t
        ∧ (∀ q, s.runs .A = true → hit l.onAgainst onA q ∨ hit l.onAgainstB onB q → t.fired 100 = true)
        ∧ (∀ q, s.runs .B = true → hit l.onAgainstB onB q → t.b.mooring = true)
        ∧ (∀ q, s.runs .A = true → hit l.offAgainst offA q ∨ hit l.offAgainstB offB q → t.fired 101 = true)
        ∧ (∀ q, s.runs .A = true → hit l.split sp q → t.fired 102 = true)
        ∧ ((∀ q, ¬ hit l.onAgainst onA q ∧ ¬ hit l.onAgainstB onB q ∧ ¬ hit l.offAgainst offA q ∧ ¬ hit l.offAgainstB offB q
            ∧ ¬ hit l.split sp q) → t = s1))
    ∧ exec (.commandLinkTransfer true) s = .next { s with lio := link false 0 }
    ∧ (s.lio.linkLost ≠ 2 → exec (.commandLinkTransfer false) s = .next { s with
        lio := { s.lio with linkLost := min (s.lio.linkLost + 1) 3 } })
    ∧ (s.lio.linkLost = 2 → ∃ t, exec (.commandLinkTransfer false) s = .next t
        ∧ Fires { s with lio := link true 3 } t 99
        ∧ (s.runs .B = true → t.b.mooring = true))
    ∧ ∀ q : Fin 16, ∃ t s1, exec (.outputOverload q) s = .next t ∧ Fires s1 t 105
        ∧ s1 = { s with lio := { s.lio with
          qovl := s1.lio.qovl, cmdA := s1.lio.cmdA, cmdB := s1.lio.cmdB, switching := listMod s.lio.switching q.val fun _ => 10 } }
        ∧ ∀ i : Fin 16, s1.lio.qovl.getLsbD i.val = (s.lio.qovl.getLsbD i.val || decide (i = q))
          ∧ s1.lio.cmdA.getLsbD i.val = (s.lio.cmdA.getLsbD i.val && decide (i ≠ q))
          ∧ s1.lio.cmdB.getLsbD i.val = (s.lio.cmdB.getLsbD i.val && decide (i ≠ q)))
  ∧ (∀ (s : State) (q : Fin 16), Shaped s →
    (s.lio.test q = none → ∀ c ∈ [Instr.outputTestReadbackPass q, .outputTestTimeout q, .outputTestEnd q true,
        .outputTestEnd q false, .testAbort q], exec c s = .next s)
    ∧ ∀ x, s.lio.test q = some x →
      let gone (d : Die) : Bool := (s.die d).mooring || (s.die d).inReset
      let latch := s.lio.qovl.getLsbD q.val
      -- what a failure does: the failed test stays in the list while it lasts
      let failed (t : State) : Prop := Reacts { s with lio := t.lio } t
        ∧ (s.runs .A = true → t.fired (if x.bright then 104 else 103) = true)
        ∧ (t.lio.hist.getD q.val {}).fails = sat16 (s.lio.hist.getD q.val {}).fails
        ∧ (x.bright = false → t.lio.qflt.getLsbD q.val = true
            ∧ (t.lio.hist.getD q.val {}).openSw = some (Die.other x.sw)
            ∧ (match x.sw with
              | .A => t.lio.cmdB
              | .B => t.lio.cmdA).getLsbD q.val = false)
      let over0 (t : State) (res : BitVec 2) : Prop := t.lio.test q = none
        ∧ (if res = 3 then (t.lio.hist.getD q.val {}).retest = (s.lio.hist.getD q.val {}).retest
            else (t.lio.hist.getD q.val {}).retest ≠ some x.sw)
        ∧ (s.lio.tEndTide ≠ some s.now → t.lio.tRes = res ∧ t.lio.tQn.toNat = q.val)
      (x.failed = true → exec (.outputTestReadbackPass q) s = .next s)
      ∧ (x.failed = false → exec (.outputTestReadbackPass q) s = .next { s with lio := { s.lio with
          tests := s.lio.tests.map fun y => if y.q = q then { x with passed := true } else y } })
      ∧ (x.passed = true ∨ x.failed = true → exec (.outputTestTimeout q) s = .next s)
      ∧ (x.passed = false → x.failed = false → ∃ t, exec (.outputTestTimeout q) s = .next t ∧ failed t
          ∧ t.lio.tests = s.lio.tests.map fun y => if y.q = q then { x with failed := true } else y)
      ∧ (∀ back, x.failed = false → x.passed = false → exec (.outputTestEnd q back) s = .next s)
      ∧ (∀ back, x.failed = true → ∃ t, exec (.outputTestEnd q back) s = .next t ∧ over0 t 2 ∧ t = { s with lio := t.lio })
      ∧ (x.failed = false → x.passed = true → ∃ t, exec (.outputTestEnd q true) s = .next t ∧ over0 t 1
          ∧ t = { s with lio := t.lio }
          ∧ (x.bright = false → (match x.sw with
              | .A => (t.lio.hist.getD q.val {}).lastA
              | .B => (t.lio.hist.getD q.val {}).lastB) = s.now))
      ∧ (x.failed = false → x.passed = true → ∃ t, exec (.outputTestEnd q false) s = .next t ∧ over0 t 2 ∧ failed t)
      ∧ (gone .A = false → gone .B = false → latch = false → exec (.testAbort q) s = .next s)
      ∧ (gone .A = true ∨ gone .B = true ∨ latch = true → ∃ t, exec (.testAbort q) s = .next t ∧ over0 t 3
          ∧ Reacts { s with lio := t.lio } t ∧ (s.runs .A = true → t.fired 106 = true)
          ∧ (t.lio.cmdA.getLsbD q.val = true → gone .A = false ∧ latch = false)
          ∧ (t.lio.cmdB.getLsbD q.val = true → gone .B = false ∧ latch = false)))

/-- A feed out of range takes its stage off and fires source 130 or 131, a failed stage switches off and fires 132 or 133;
the stage in Standby takes the load with source 134, and hold-up with source 136, no feed and a flush begins where no
working stage is left. A last stage that fails by other than over voltage carries on. A feed in range, the end of soft
start, the self-check and a retry lead a stage on (R381 to R387, R403). A standby test is skipped where a feed is out of
range, a stage starts, hold-up has begun or a take-over is less than 60 s old; otherwise the stage in Standby runs it.
Passed it is recorded, failed the stage fails with source 135 (R386, R403). -/
def Obligations.PowerStagesChangeAndAreTested : Prop :=
  (∀ (s : State) (x : Die), Shaped s →
    let y := Die.other x
    let p := s.pws
    let was := p.stage x
    let feed : Nat := match x with
      | .A => 130
      | .B => 131
    let own : Nat := match x with
      | .A => 132
      | .B => 133
    let last := !p.hold && p.working x && !p.working y
    -- what stage x that leaves its state with source src does to the module
    let leaves (t : State) (src : Nat) : Prop :=
      Reacts { s with pws := t.pws, lio := t.lio, rcd := { s.rcd with flush := t.rcd.flush, flushOp := t.rcd.flushOp } } t
      ∧ (s.runs .A = true → t.fired src = true)
      ∧ t.pws.stage y = (if was = 4 ∧ p.stage y = 3 then 4 else p.stage y) ∧ t.pws.feedOk y = p.feedOk y
      ∧ (was = 4 → p.stage y = 3 → (s.runs .A = true → t.fired 134 = true) ∧ t.pws.takeoverAt = some s.now
          ∧ (RstUnit.pws x, tideAdd s.now (Config.settleTides (.pws x))) ∈ t.settle)
      ∧ t.pws.hold = (p.hold || last)
      ∧ (last = true → (s.runs .A = true → t.fired 136 = true ∧ t.rcd.flush = true ∧ t.rcd.flushOp = 2)
          ∧ ReactsLio s.tide.running { s.lio with tpgAct := 0, lit := false, sens := false, pulse := none } t.lio)
      ∧ (last = false → ReactsLio s.tide.running s.lio t.lio ∧ t.rcd.flush = s.rcd.flush ∧ t.rcd.flushOp = s.rcd.flushOp)
    (p.feedOk x = false → exec (.feedOutOfRange x) s = .next s)
    ∧ (p.feedOk x = true → ∃ t, exec (.feedOutOfRange x) s = .next t ∧ leaves t feed ∧ t.pws.feedOk x = false
        ∧ t.pws.stage x = if was = 5 then 5 else 0)
    ∧ (∀ dc, p.feedOk x = true → exec (.feedInRange x dc) s = .next s)
    ∧ (∀ dc, p.feedOk x = false → ∃ t, exec (.feedInRange x dc) s = .next t ∧ t = { s with pws := t.pws }
        ∧ t.pws.feedOk x = true ∧ t.pws.feedOk y = p.feedOk y ∧ t.pws.stage y = p.stage y
        ∧ (was = 0 → t.pws.stage x = 1) ∧ (was ≠ 0 → was ≠ 5 → t.pws.stage x = was)
        ∧ (was = 5 → t.pws.stage x = if !s.tide.running || (match x with
            | .A => p.outA
            | .B => p.outB).all (fun o => reached s.now (tideAdd o (s.tides 2000))) then 1 else 5))
    ∧ (was = 1 → exec (.stageSoftStartDone x) s = .next { s with pws := p.setStage x 2 })
    ∧ (was ≠ 1 → exec (.stageSoftStartDone x) s = .next s)
    ∧ (∀ ok, was ≠ 2 → exec (.stageSelfCheckDone x ok) s = .next s)
    ∧ (was = 2 → exec (.stageSelfCheckDone x true) s
        = .next { s with pws := p.setStage x (if p.stage y = 4 then 3 else 4) })
    ∧ (was = 2 → ∃ t, exec (.stageSelfCheckDone x false) s = .next t ∧ Fires { s with pws := p.setStage x 5 } t own)
    ∧ (∀ ov, was < 2 ∨ was = 5 → exec (.stageFailure x ov) s = .next s)
    ∧ (was = 4 → p.stage y ≠ 3 → p.stage y ≠ 4 → ∃ t, exec (.stageFailure x false) s = .next t ∧ Reacts s t
        ∧ t.fired own = true ∧ t.pws = p ∧ t.settle = s.settle ∧ t.moor = s.moor ∧ t.lio = s.lio)
    ∧ (∀ ov, 2 ≤ was → was ≠ 5 → ov = true ∨ was ≠ 4 ∨ p.stage y = 3 ∨ p.stage y = 4 →
        ∃ t, exec (.stageFailure x ov) s = .next t ∧ leaves t own ∧ t.pws.stage x = 5 ∧ t.pws.feedOk x = p.feedOk x)
    ∧ ∀ a b : Bool, ∃ t, exec (.pwsCmdRetry a b) s = .next t ∧ t = { s with pws := { p with sa := t.pws.sa, sb := t.pws.sb } }
        ∧ t.pws.stage .A = (if a = true ∧ p.stage .A = 5 ∧ p.fokA = true then 1 else p.stage .A)
        ∧ t.pws.stage .B = (if b = true ∧ p.stage .B = 5 ∧ p.fokB = true then 1 else p.stage .B))
  ∧ (∀ s : State, Shaped s →
    let p := s.pws
    let skips := p.fokA = false ∨ p.fokB = false ∨ p.stage .A ∈ [1, 2] ∨ p.stage .B ∈ [1, 2] ∨ p.hold = true
      ∨ ∃ t, p.takeoverAt = some t ∧ s.tide.running = true ∧ later (tideAdd t (s.tides 60000)) s.now = true
    let start (x : Die) : State := { s with pws := { p with stbt := true, testReq := false, tStg := x == .B } }
    (p.stbt = true → exec .standbyTestStart s = .next s)
    ∧ (p.stbt = false → skips → exec .standbyTestStart s = .next { s with pws := { p with
        testReq := false, tRes := 3, tAge := 0, tMs := 0 } })
    ∧ (p.stbt = false → ¬ skips → p.stage .A = 3 → exec .standbyTestStart s = .next (start .A))
    ∧ (p.stbt = false → ¬ skips → p.stage .A ≠ 3 → p.stage .B = 3 → exec .standbyTestStart s = .next (start .B))
    ∧ (p.stbt = false → ¬ skips → p.stage .A ≠ 3 → p.stage .B ≠ 3 →
        exec .standbyTestStart s = .next { s with pws := { p with testReq := false } })
    ∧ (∀ ok, p.stbt = false → exec (.standbyTestEnd ok) s = .next s)
    ∧ (p.stbt = true → exec (.standbyTestEnd true) s = .next { s with pws := { p with
        stbt := false, tRes := 1, tAge := 0, tMs := 0 } })
    ∧ (p.stbt = true → ∃ t, exec (.standbyTestEnd false) s = .next t ∧ Fires { s with
        pws := ({ p with stbt := false, tRes := 2, tAge := 0, tMs := 0 } : PwsSt).setStage (if p.tStg then .B else .A) 5 } t 135)
    ∧ exec .pwsCmdTest s = .next { s with pws := { p with testReq := true } })

/-- At the cut-off of hold-up, and after 30 ms of a closed RST_N, both dies are in reset with every register at its reset
value; what stands without power stays, and a burn is cut off. They are released, in Fuse read with the cause of the
start, after hold-up, when RST_N opens, or at power-up, as far as nothing holds them. RST_N is closed below 100 Ω and open
above 10 kΩ; 2 ms closed start a flush, and more than 10 s are counted (R13, R377, R387 to R392, R425). -/
def Obligations.HoldAndReleaseOfTheDies : Prop :=
  ∀ (s : State), 
    let p := s.pws
    let held : State := holdDies s
    let loaded := p.stage .A = 4 ∨ p.stage .B = 4
    held = { State.reset with
      pending := s.pending, tx := s.tx, draws := (burnCut s).draws, norA := s.norA, norB := s.norB, rcd := s.rcd.kept,
      fus := { a := { lo := (burnCut s).fus.a.lo, hi := (burnCut s).fus.a.hi },
               b := { lo := (burnCut s).fus.b.lo, hi := (burnCut s).fus.b.hi } },
      pws := { p with released := false },
      bells := { s.bells with edgesA := 0, edgesB := 0, edgeA := false, edgeB := false } }
    ∧ (∀ cause, releaseDies s cause = { held with
        mode := if p.railA then .off else .fuseRead,
        a := { inReset := p.railA }, b := { inReset := p.railB },
        pws := { p with cause := cause, nextCause := 1, hold := false, seqEnded := false, rstHeld := false, released := true } })
    ∧ (p.hold = true → p.seqEnded = false → exec .holdupCutoff s = .next { held with
        pws := { p with released := false, seqEnded := true, nextCause := 3 } })
    ∧ (p.hold = false ∨ p.seqEnded = true → exec .holdupCutoff s = .next s)
    ∧ (let may := p.hold = true ∧ p.seqEnded = true ∧ loaded ∧ p.rstHeld = false
       (may → exec .dieRelease s = .next (releaseDies s 3)) ∧ (¬ may → exec .dieRelease s = .next s))
    ∧ (let may := s.mode = .off ∧ p.released = false ∧ p.hold = false ∧ p.rstHeld = false
       (may → exec .powerUp s = .next (releaseDies s p.nextCause)) ∧ (¬ may → exec .powerUp s = .next s))
    ∧ (∀ ohms, ohms < 100 → exec (.rstNClose ohms) s = .next { s with pws := { p with rstClosed := true } })
    ∧ (∀ ohms, 10000 < ohms → exec (.rstNClose ohms) s = .next s)
    ∧ (∀ ohms, 100 ≤ ohms → ohms ≤ 10000 → exec (.rstNClose ohms) s = .next { s with
        draws := s.draws + 1, pws := { p with rstClosed := p.rstClosed || Config.rstReads s.draws } })
    ∧ (p.rstClosed = false ∨ p.rstPend = true → exec .rstPend s = .next s)
    ∧ (p.rstClosed = true → p.rstPend = false → exec .rstPend s = .next { s with
        pws := { p with rstPend := true },
        rcd := if s.runs .A then { s.rcd with flush := true, flushOp := 3 } else s.rcd })
    ∧ (p.rstClosed = true → p.rstPend = true → p.rstHeld = false → exec .rstHold s = .next { held with
        pws := { p with released := false, rstHeld := true, longNow := false, nextCause := 2 } })
    ∧ (p.rstClosed = false ∨ p.rstPend = false ∨ p.rstHeld = true → exec .rstHold s = .next s)
    ∧ (p.rstHeld = true → p.longNow = false → exec .rstLong s = .next { s with
        pws := { p with longNow := true, longHolds := sat16 p.longHolds } })
    ∧ (p.rstHeld = false ∨ p.longNow = true → exec .rstLong s = .next s)
    ∧ ∀ (ohms : Nat) (tenths : Word),
        let opened : PwsSt := { p with rstClosed := false, rstPend := false }
        let after : State := { s with pws := { opened with
          rstHeld := false, rsth := tenths, longReport := p.longReport || p.longNow, longNow := false } }
        (ohms < 100 ∨ (10000 < ohms ∧ p.rstClosed = false) → exec (.rstNOpen ohms tenths) s = .next s)
        ∧ (10000 < ohms → p.rstClosed = true → p.rstHeld = false →
            exec (.rstNOpen ohms tenths) s = .next { s with pws := opened })
        ∧ (10000 < ohms → p.rstClosed = true → p.rstHeld = true → p.hold = false → loaded →
            exec (.rstNOpen ohms tenths) s = .next (releaseDies after 2))
        ∧ (10000 < ohms → p.rstClosed = true → p.rstHeld = true → p.hold = true ∨ ¬ loaded →
            exec (.rstNOpen ohms tenths) s = .next after)
        ∧ (100 ≤ ohms → ohms ≤ 10000 → ∃ o, (o = 99 ∨ o = 10001)
            ∧ exec (.rstNOpen ohms tenths) s = exec (.rstNOpen o tenths) { s with draws := s.draws + 1 })

/-- Fuse read senses the fuses of the dies that run and have not sensed them, and takes the coding plug; with both
identities resolved the first tide, 2^18 after the latest one recorded, begins in Self-test, and what sensing found has
fired, as has 143 where no settings copy is valid. Otherwise the module halts. A Self-test of which every row passes, the
boot images among them, goes on at the next boundary; one that fails halts the module with a record (R28, R46, R272, R368,
R369, R391, R392, R394, R414). -/
def Obligations.StartUpBegins : Prop :=
  ∀ s : State, Shaped s →
    (∀ x7 : BitVec 6,
      let fa := if s.runs .A && !s.fus.a.sensed then s.fus.a.sense else s.fus.a
      let fb := if s.runs .B && !s.fus.b.sensed then s.fus.b.sense else s.fus.b
      let known := (s.runs .A = true → fa.latched.identity .A = true) ∧ (s.runs .B = true → fb.latched.identity .B = true)
      let first := tideAdd (recordedTide s) 262144
      (s.mode ≠ .fuseRead → exec (.fuseReadDone x7) s = .next s)
      ∧ (s.mode = .fuseRead → ¬ known → exec (.fuseReadDone x7) s = .next { s with
          mode := .halted, fus := { s.fus with a := fa, b := fb }, twin := { s.twin with unitId := x7 },
          tide := if fa.latched.identity .A then { s.tide with running := true, num := first, bNum := first } else s.tide,
          pws := if fa.latched.identity .A then { s.pws with firstTide := first } else s.pws })
      ∧ (s.mode = .fuseRead → known → ∃ t, exec (.fuseReadDone x7) s = .next t ∧ t.mode = .selfTest
          ∧ t.fus = { s.fus with a := fa, b := fb } ∧ t.twin.unitId = x7
          ∧ t.tide = { s.tide with running := true, num := first, bNum := first }
          ∧ t.pws = { s.pws with firstTide := first, longReport := false }
          ∧ (s.runs .A = true → (fa.latched.weak ≠ [] → t.fired 126 = true) ∧ (fa.latched.copiesDiffer = true → t.fired 127 = true)
              ∧ (s.pws.longReport = true → t.fired 137 = true)
              ∧ (flushedCleanly s = false → t.fired 141 = true ∧ t.rcd.flinc = true)
              ∧ (storeUsed s.norA = none → t.fired 143 = true))
          ∧ (s.runs .B = true → s.fus.b.sensed = false → fb.weak ≠ [] → t.fired 47 = true)
          ∧ t = { s with
            mode := t.mode, fus := t.fus, tide := t.tide, pws := t.pws, twin := t.twin, a := t.a, b := t.b, ev := t.ev,
            evb := t.evb, rcd := t.rcd, dict := t.dict, moor := t.moor, ports := t.ports, tx := t.tx, draws := t.draws,
            settle := t.settle, resets := t.resets, svc := t.svc }))
    ∧ (∀ failed, s.mode ≠ .selfTest ∨ s.start.modeNext ≠ none → exec (.selfTestDone failed) s = .next s)
    ∧ (∀ d, s.runs d = true → (bootOk s d = true ↔ imageDigest (match d with
        | .A => s.norA
        | .B => s.norB) = (s.fus.of d).wires.boot))
    ∧ ∀ failed : Option (Fin 7), s.mode = .selfTest → s.start.modeNext = none →
        let fails (i : Fin 7) : Prop := if i = 1 then bootOk s .A = false ∨ bootOk s .B = false
          else failed = some i ∨ (i = 3 ∧ (s.pws.railA = true ∨ s.pws.railB = true)) ∨ (i = 5 ∧ s.bells.bcon = true)
        ((∀ i, ¬ fails i) →
          exec (.selfTestDone failed) s = .next { s with start := { s.start with modeNext := some .load } })
        ∧ ((∃ i, fails i) → ∃ t, exec (.selfTestDone failed) s = .next t ∧ Recorded { s with mode := .halted } t)

/-- A page takes the oldest queued records, up to 253 slots of whole records in their order, and its chain value is the
hash of the value before it and its first 4,064 octets. A full page, a checkpoint after 65,536 tides and a flush program
the open page; a block that fails is retired with source 138; the flush ends with its SYSTEM record (R405 to R407, R413,
R414, R417). In the mirroring and guard phases, 16 tides apart, one page is read again, in turn, and source 139 fires
where its chain value does not hold; EMAX is the highest erase count of a usable block. A POINT record is queued, or
dropped and counted where only the last 256 places are free. A read of the newest or oldest page number latches its high
word (R60, R407, R411, R415, R418). -/
def Obligations.RecorderKeepsRecords : Prop :=
  (∀ s : State, Shaped s → cellWf blankPage s.rcd.pages = true →
    let programs (x y : State) : Prop := Reacts { x with rcd := y.rcd } y
      ∧ (let body := pageBody x.rcd (openPage x.rcd).1
         let c := sha256 (x.rcd.chain ++ body)
         cellGet blankPage y.rcd.pages x.rcd.openPos = body ++ c ∧ y.rcd.chain = c)
      ∧ y.rcd.newest = some x.rcd.openSeq ∧ y.rcd.newPos = x.rcd.openPos ∧ y.rcd.lastProg = x.now
      ∧ y.rcd.drop = x.rcd.drop ∧ y.rcd.dropNow = 0
      ∧ (openPage x.rcd).2 <+: y.rcd.queue
    (∀ r : RecSt, (openPage r).1 ++ (openPage r).2.flatten = r.queue.flatten ∧ (openPage r).1.length ≤ 253)
    ∧ (let due := s.runs .A = true ∧ (pageFull s.rcd = true ∨ (s.rcd.flush = true ∧ s.rcd.queue ≠ []))
       (∀ ok, ¬ due → exec (.pageProgram ok) s = .next s)
       ∧ (due → ∃ t, exec (.pageProgram true) s = .next t ∧ programs s t)
       ∧ (due → ∃ t s1, exec (.pageProgram false) s = .next t ∧ Fires s1 t 138
          ∧ Recorded { s with rcd := { s.rcd with
              retired := s.rcd.retired + 1, reserve := s.rcd.reserve - 1,
              erases := if s.rcd.reserve = 0 then s.rcd.erases else cellSet 0 s.rcd.erases (s.rcd.openPos / 64) 0,
              usable := if s.rcd.reserve = 0 then s.rcd.usable - 1 else s.rcd.usable } } s1))
    ∧ (s.runs .A = false ∨ tideGap s.now s.rcd.lastProg < 65536 → exec .tideCheckpoint s = .next s)
    ∧ (s.runs .A = true → 65536 ≤ tideGap s.now s.rcd.lastProg → ∃ t, exec .tideCheckpoint s = .next t
        ∧ programs (recSystem s 9 []) t)
    ∧ (s.runs .A = false ∨ s.rcd.flush = false → exec .flushComplete s = .next s)
    ∧ (s.runs .A = true → s.rcd.flush = true → ∃ t s1 s2, exec .flushComplete s = .next t ∧ s1 = drain 64 s
        ∧ s2 = drain 64 (recSystem s1 s1.rcd.flushOp.toNat []) ∧ t = { s2 with rcd := { s2.rcd with flush := false } }
        ∧ Reacts { s with rcd := t.rcd } t)
    ∧ ∀ n, drain (n + 1) s = (if s.rcd.queue = [] then s else drain n (programOpen s)) ∧ programs s (programOpen s))
  ∧ (∀ s : State, Shaped s →
    let r := s.rcd
    let ring := 64 * r.usable
    let page (n : Nat) : Octets := cellGet blankPage r.pages n
    let pos := r.checkPos
    let before := page ((pos + ring - 1) % ring)
    let holds := page pos = blankPage ∨ before = blankPage ∨ pos = r.oldPos
      ∨ sha256 (before.drop 4064 ++ (page pos).take 4064) = (page pos).drop 4064
    let next : State := { s with rcd := { r with checkPos := (pos + 1) % ring, checkAt := some s.now } }
    let due := s.runs .A = true ∧ (s.tide.ph = 3 ∨ s.tide.ph = 5) ∧ ∀ t, r.checkAt = some t → 16 ≤ tideGap s.now t
    (¬ due → exec .chainCheck s = .next s)
    ∧ (due → holds → exec .chainCheck s = .next next)
    ∧ (due → ¬ holds → ∃ t, exec .chainCheck s = .next t ∧ Fires next t 139)
    ∧ (∀ b n, (b, n) ∈ r.erases → b < r.usable → n ≤ r.emax)
    ∧ (∀ p new old : Word,
        (s.runs .A = false → exec (.recordDrop p new old) s = .next s)
        ∧ (s.runs .A = true → 8192 - 256 ≤ r.qfill → exec (.recordDrop p new old) s = .next { s with rcd := { r with
            drop := sat18 r.drop, dropNow := r.dropNow + 1 } })
        ∧ (s.runs .A = true → r.qfill < 8192 - 256 → exec (.recordDrop p new old) s = .next { s with rcd := { r with
            queue := r.queue ++ [[recSlot 1 false false s.now s.tide.tick.toNat (be 3 p.toNat ++ be 3 new.toNat ++ be 3 old.toNat)]],
            latest := s.now } }))
    ∧ exec (.recPageRead false) s = .next { s with
        rcd := { r with latchNew := BitVec.ofNat 18 ((r.newest.getD 0).toNat / 2 ^ 18) },
        core := { s.core with busData := BitVec.ofNat 18 ((r.newest.getD 0).toNat % 2 ^ 18), busErr := false } }
    ∧ exec (.recPageRead true) s = .next { s with
        rcd := { r with latchOld := BitVec.ofNat 18 (r.oldest.toNat / 2 ^ 18) },
        core := { s.core with busData := BitVec.ofNat 18 (r.oldest.toNat % 2 ^ 18), busErr := false } })

/-- A heartbeat one higher than the B-die's last tide starts its next tide, the same again changes nothing, and any other
starts a tide and fires source 6. A die takes the first heartbeat from its link: a deviation of more than 5,000 ppm fires
its deviation source, and a CRC other than that of its own final moor set fires source 16. A lost heartbeat fires the
die's loss source; a frame that fails its CRC is discarded, counted, and fires source 14. A channel that has finished on
its closed intake is marked done, with the position, rounded up, among the tide's peaks (R24, R25, R48, R78, R158, R163,
R168, R182, R322). -/
def Obligations.GangwayHeartbeatsAndFailedFrames : Prop :=
  ∀ (s : State), Shaped s →
    (∀ d : Die, s.runs d = false → (d = .B → exec .heartbeatArrivalB s = .next s)
        ∧ (∀ dev, exec (.gangwayHeartbeatReceived d dev) s = .next s) ∧ exec (.gangwayHeartbeatTimeout d) s = .next s
        ∧ exec (.gangwayFrameCrcFail d) s = .next s)
    ∧ (∀ num crc, s.runs .B = true → s.ab.find? GwFrame.isHeartbeat = some (.heartbeat num crc) →
        let s1 : State := { s with tide := { s.tide with bNum := num } }
        (num = s.tide.bNum ∨ num = s.tide.bNum + 1 → exec .heartbeatArrivalB s = .next s1)
        ∧ (num ≠ s.tide.bNum → num ≠ s.tide.bNum + 1 → ∃ t, exec .heartbeatArrivalB s = .next t ∧ Reacts s1 t
            ∧ t.fired 6 = true))
    ∧ (∀ (d : Die) (dev : Int) (num : Tide) (crc : BitVec 32) (q : List GwFrame), s.runs d = true →
        takeFrame (s.gwFor d) GwFrame.isHeartbeat = some (.heartbeat num crc, q) →
        ∃ t, exec (.gangwayHeartbeatReceived d dev) s = .next t ∧ Reacts (s.setGwFor d q) t
          ∧ (5000 < dev.natAbs → t.fired (match d with
              | .A => 18
              | .B => 40) = true)
          ∧ (crc ≠ (s.die d).finalCrc → t.fired 16 = true)
          ∧ (dev.natAbs ≤ 5000 → crc = (s.die d).finalCrc → t = s.setGwFor d q))
    ∧ (∀ d : Die, s.runs d = true →
        (∃ t, exec (.gangwayHeartbeatTimeout d) s = .next t ∧ Reacts s t ∧ t.fired (match d with
          | .A => 19
          | .B => 41) = true)
        ∧ ∀ f q, s.gwFor d = f :: q → ∃ t s1, exec (.gangwayFrameCrcFail d) s = .next t
          ∧ s1.die d = { s.die d with dropped := (s.die d).dropped + 1 } ∧ s1.die (Die.other d) = s.die (Die.other d)
          ∧ s1 = { s.setGwFor d q with a := s1.a, b := s1.b } ∧ Reacts s1 t ∧ t.fired 14 = true)
    ∧ (∀ d : Die,
        let may := s.runs .A = true ∧ (match d with
          | .A => s.a.armed = true ∧ s.tide.closed = true
          | .B => s.runs .B = true ∧ s.b.armed = true ∧ s.intake.bClosed = true)
        let c : Instr := match d with
          | .A => .channelAEvalComplete
          | .B => .channelBEvalComplete
        let k := match d with
          | .A => 1
          | .B => 2
        (¬ may → exec c s = .next s)
        ∧ (may → ∃ t, exec c s = .next t ∧ t = { s with tide := { s.tide with
              aDone := s.tide.aDone || d = .A, bDone := s.tide.bDone || d = .B, budget := t.tide.budget } }
            ∧ (k < s.tide.budget.length → (t.tide.budget.getD k 0).toNat = max (s.tide.budget.getD k 0).toNat (s.tide.tick.toNat + 1))
            ∧ ∀ j, j ≠ k → t.tide.budget.getD j 0 = s.tide.budget.getD j 0))

/-- A comparison begins where no later phase has: an overrun fires source 0 or 1, and each running die with an armed net
computes its 512 group signatures and its digest over its own working bank and sends them. What arrives before the die's
deadline is kept, what arrives later is not. At the deadline a die lists the groups whose signatures differ or did not
arrive, decides Moor for a digest that differs or is missing or for more than 15 groups, and fires sources 8 to 11 for
what it finds; groups that an overrun leaves incomplete, a free value of the model (log 39), are not compared. At the
exchange every such die sends its verdict frame of 32 octets, which reads back as the verdict, and the groups its Degrade
reactions have added, and later ones count for the next tide (R56, R164 to R167, R329). -/
def Obligations.SignaturesAndVerdictsAreFormed : Prop :=
  ∀ (s : State), Shaped s →
    (s.tide.running = false ∨ 2 ≤ s.tide.ph.toNat → exec .comparisonStart s = .next s)
    ∧ (s.tide.running = true → s.tide.ph.toNat < 2 → ∃ t s1 s2, exec .comparisonStart s = .next t
        ∧ s1 = { s with tide := { s.tide with ph := 2, tick := s1.tide.tick, budget := s1.tide.budget } }
        ∧ s1.tide.tick.toNat = max s.tide.tick.toNat (Config.tickAt 1500).toNat ∧ Reacts s1 s2
        ∧ (s.a.armed = true → s.runs .A = true → (s.tide.aDone = false → s2.fired 0 = true)
            ∧ (s.tide.bDone = false → s2.fired 1 = true))
        ∧ (s.a.armed = false ∨ (s.tide.aDone = true ∧ s.tide.bDone = true) → s2 = s1)
        ∧ t = { s2 with a := t.a, b := t.b, ab := t.ab, ba := t.ba }
        ∧ ∀ d : Die,
          let sigs := groupSigs s d
          let sent := (List.range 64).map (fun k => GwFrame.sigs k ((sigs.drop (8 * k)).take 8))
            ++ [.digest (wholeDigest s d sigs)]
          let signs := s.runs d && (s.die d).armed
          t.die d = (if signs then { s2.die d with sigs := sigs, dig := wholeDigest s d sigs } else s2.die d)
          ∧ t.gwFor (Die.other d) = s.gwFor (Die.other d) ++ if signs then sent else [])
    ∧ (∀ (d : Die), s.runs d = false → exec (.signatureFrameReceived d) s = .next s)
    ∧ (∀ (d : Die) (f : GwFrame) (q : List GwFrame), s.runs d = true →
        takeFrame (s.gwFor d) GwFrame.isSig = some (f, q) →
        ∃ t, exec (.signatureFrameReceived d) s = .next t ∧ t.gwFor d = q ∧ t.gwFor (Die.other d) = s.gwFor (Die.other d)
          ∧ t.die (Die.other d) = s.die (Die.other d) ∧ t = { s with a := t.a, b := t.b, ab := t.ab, ba := t.ba }
          ∧ t.die d = if (s.die d).sigDeadline then s.die d else match f with
            | .sigs k v => { s.die d with otherSigs := (s.die d).otherSigs ++ [(k, v)] }
            | .digest g => { s.die d with otherDig := some g }
            | _ => s.die d)
    ∧ (s.tide.running = false ∨ s.tide.ph ≠ 2 → exec .signatureDeadline s = .next s ∧ exec .verdictExchange s = .next s)
    ∧ (s.moor.exchanged = true → exec .verdictExchange s = .next s)
    ∧ (s.tide.running = true → s.tide.ph = 2 → ∃ t, exec .signatureDeadline s = .next t ∧ Compared 1560 s t)
    ∧ (s.tide.running = true → s.tide.ph = 2 → s.moor.exchanged = false → ∃ t u, exec .verdictExchange s = .next t
        ∧ Compared 1575 s u ∧ t = { u with ab := t.ab, ba := t.ba, moor := { u.moor with exchanged := true } }
        ∧ ∀ d : Die, t.gwFor (Die.other d) = s.gwFor (Die.other d) ++
            if s.runs d && (s.die d).armed then
              [.verdict (verdictOctets (u.die d).verdictMoor (u.die d).verdict), .degrade (u.die d).degrade]
            else [])
    ∧ ∀ (moor : Bool) (gs : List (BitVec 9)), gs.length ≤ 15 →
        (verdictOctets moor gs).length = 32 ∧ verdictRead (verdictOctets moor gs) = (moor, if moor then [] else gs)

/-- A die takes the verdict and the moor-set frame that wait, up to its own deadline. At the deadline its final moor set
is the union of both verdicts, of what overruns left incomplete and of both dies' Degrade groups, with the CRC that its
heartbeats carry; Moor in either verdict makes the die decide to moor the module, more than 15 groups fire source 12, a
group that enters the set for the third time within 4,096 tides source 13, and a frame that is missing source 15. A set
once formed stays (R167 to R169, R329, R330). -/
def Obligations.FinalMoorSetsAreFormed : Prop :=
  ∀ (s : State) (d : Die), Shaped s →
    let x := s.die d
    (s.runs d = false → exec (.verdictFrameReceived d) s = .next s)
    ∧ (s.runs d = true → ∃ t, exec (.verdictFrameReceived d) s = .next t
        ∧ t.gwFor d = ((s.gwFor d).eraseP GwFrame.isVerdict).eraseP GwFrame.isDegrade
        ∧ t.gwFor (Die.other d) = s.gwFor (Die.other d) ∧ t.die (Die.other d) = s.die (Die.other d)
        ∧ t = { s with a := t.a, b := t.b, ab := t.ab, ba := t.ba }
        ∧ t.die d = { x with otherVerdict := (t.die d).otherVerdict, otherDegrade := (t.die d).otherDegrade }
        ∧ (x.formed = true → t.die d = x)
        ∧ (x.formed = false →
            (∀ os, (s.gwFor d).find? GwFrame.isVerdict = some (.verdict os) → (t.die d).otherVerdict = some (verdictRead os))
            ∧ (∀ g, (s.gwFor d).find? GwFrame.isDegrade = some (.degrade g) → (t.die d).otherDegrade = some g)))
    ∧ (s.tide.running = false ∨ s.tide.ph ≠ 2 → exec (.verdictDeadline d) s = .next s)
    ∧ (s.tide.running = true → s.tide.ph = 2 → ∃ t s1, exec (.verdictDeadline d) s = .next t
        ∧ s1 = { s with tide := { s.tide with tick := s1.tide.tick }, a := s1.a, b := s1.b,
                        moor := { s.moor with entries := s1.moor.entries } }
        ∧ s1.tide.tick.toNat = max s.tide.tick.toNat (Config.tickAt 1620).toNat ∧ Reacts s1 t
        ∧ s1.die (Die.other d) = s.die (Die.other d)
        ∧ (s.runs d = false ∨ x.armed = false ∨ x.formed = true → t = s1 ∧ s1.die d = x ∧ s1.moor = s.moor)
        ∧ (s.runs d = true → x.armed = true → x.formed = false →
            let fset := verdictSet x.verdict ||| verdictSet ((x.otherVerdict.map (·.2)).getD []) ||| x.found ||| x.degrade
              ||| x.otherDegrade.getD 0
            let many := x.many || 15 < gCount fset
            let moor := x.verdictMoor || (x.otherVerdict.map (·.1)).getD false || many
            s1.die d = { x with final := fset, finalMoor := moor, formed := true,
                                finalCrc := crc32c (gsetOct fset ++ [if moor then 1 else 0]) }
            ∧ (moor = true → (t.die d).mooring = true ∧ t.moor.pendM = true)
            ∧ (many = true → t.fired 12 = true)
            ∧ (x.otherVerdict = none ∨ x.otherDegrade = none → t.fired 15 = true)
            ∧ (∀ g, g < 512 → gHas fset g = true → s.groupMoored g = false → (g, s.now) ∈ s1.moor.entries)
            ∧ (∀ e, e ∈ s1.moor.entries → e ∈ s.moor.entries ∨ (gHas fset e.1 = true ∧ e.2 = s.now))
            ∧ ((∃ g, g < 512 ∧ gHas fset g = true ∧ (g, s.now) ∈ s1.moor.entries
                ∧ 3 ≤ countIf s1.moor.entries (fun e => e.1 = g)) → t.fired 13 = true)
            ∧ (moor = false → many = false → x.otherVerdict ≠ none → x.otherDegrade ≠ none → fset = 0 → t = s1)))

/-- A copy on a lane that is up is checked by each running die on its own: the A-die, unless the port's engine is in
reset, sends its verdict and counts a failed header or a failed A-signature with its source, the B-die counts a failed
B-signature and keeps a good copy where a verdict is coming; each counts SERVICE and ENROL frames per port, lane and node.
A copy lands at the B-die when a passing A-verdict meets its own passed check: the first INPUT copy of a node in this
tide's intake enters the close list and is noticed to the A-die; a further one is a duplicate, one after intake close
late, one of the tide before comes past its time as well, one of the next tide is held in the guard phase, and one of
another tide is outside the tide; SERVICE and ENROL copies are accepted once, and the B-die's tap keeps their frames (R51
to R53, R217, R220, R226, R237). -/
def Obligations.CopiesAreCheckedAndLand : Prop :=
  ∀ (s : State), Shaped s →
    (∀ (p : Fin 4) (l : Lane) (fa fb : Octets), receives s = false ∨ (s.port p.val).up l = false →
        exec (.inputCopyReceive p l fa fb) s = .next s)
    ∧ (∀ (p : Fin 4) (l : Lane) (fa fb : Octets), receives s = true → (s.port p.val).up l = true → ∃ t,
        exec (.inputCopyReceive p l fa fb) s = .next t
        ∧ t.intake.nextCopy = s.intake.nextCopy + 1 ∧ s.tx <+: t.tx ∧ ReactsLio s.tide.running s.lio t.lio
        ∧ t = { s with
            intake := { s.intake with nextCopy := t.intake.nextCopy, aCopies := t.intake.aCopies, bCopies := t.intake.bCopies,
                                      rate := t.intake.rate, basis := t.intake.basis },
            ab := t.ab, a := t.a, b := t.b, ev := t.ev, evb := t.evb, rcd := t.rcd, moor := t.moor, ports := t.ports,
            twin := t.twin, tx := t.tx, draws := t.draws, settle := t.settle, resets := t.resets, svc := t.svc, eva := t.eva,
            lio := t.lio, rows := t.rows, dict := { s.dict with commitBy := t.dict.commitBy } }
        ∧ (let k := s.intake.nextCopy
          let c (f : Lst) : RxCopy := { copy := k, port := p, lane := l, f := f }
          let ja := judgeCopy s .A p l fa
          let jb := judgeCopy s .B p l fb
          let atA := s.runs .A && !s.unitDown (.fpe p)
          let counts (d : Die) (os : Octets) : Option RateKey :=
            match lstParse ((s.die d).net.getD Net.empty).vid ((s.die d).net.getD Net.empty).etype 210 os with
            | some f => if f.kind = 2 || f.kind = 3 then some { die := d, port := p, lane := l, node := f.src.toNat } else none
            | none => none
          let ok := match ja with
            | .good _ => true
            | _ => false
          let hdr := match ja with
            | .bad _ => atA
            | _ => false
          let siga := match ja with
            | .badSig _ => atA
            | _ => false
          let sigb := match jb with
            | .badSig _ => s.runs .B
            | _ => false
          t.ab = s.ab ++ (if atA then [.aVerdict k ok] else [])
          ∧ t.intake.aCopies = s.intake.aCopies ++ (match ja with
            | .good f => if atA then [c f] else []
            | _ => [])
          ∧ t.intake.bCopies = (if atA then
              s.intake.bCopies ++ (match jb with
                | .good f => if s.runs .B then [c f] else []
                | _ => [])
            else s.intake.bCopies.filter fun x => x.copy ≠ k)
          ∧ (∀ key : RateKey, rateOf t key = rateOf s key + b2n (atA && counts .A fa = some key)
              + b2n (s.runs .B && counts .B fb = some key))
          ∧ (t.port p.val).hdr = (if hdr then sat18 (s.port p.val).hdr else (s.port p.val).hdr)
          ∧ (hdr = true → t.fired (51 + 8 * p.val) = true)
          ∧ (t.port p.val).siga = (if siga then sat18 (s.port p.val).siga else (s.port p.val).siga)
          ∧ (siga = true → t.fired (50 + 8 * p.val) = true)
          ∧ (t.port p.val).sigbLive = (if sigb then sat18 (s.port p.val).sigbLive else (s.port p.val).sigbLive)
          ∧ ∀ q : Fin 4, q ≠ p → (t.port q.val).hdr = (s.port q.val).hdr ∧ (t.port q.val).siga = (s.port q.val).siga
              ∧ (t.port q.val).sigbLive = (s.port q.val).sigbLive))
    ∧ (s.runs .B = false → exec .aVerdictReceived s = .next s)
    ∧ (∀ (k : Nat) (q : List GwFrame) (pass : Bool), s.runs .B = true →
        takeFrame s.ab GwFrame.isVerdictA = some (.aVerdict k pass, q) →
        pass = false ∨ (∀ c, c ∈ s.intake.bCopies → c.copy ≠ k) →
        exec .aVerdictReceived s = .next { s with
          ab := q, intake := { s.intake with bCopies := s.intake.bCopies.filter fun c => c.copy ≠ k } })
    ∧ (∀ (k : Nat) (q : List GwFrame) (c : RxCopy), s.runs .B = true →
        takeFrame s.ab GwFrame.isVerdictA = some (.aVerdict k true, q) →
        (s.intake.bCopies.find? fun x => x.copy = k) = some c → ∃ t, exec .aVerdictReceived s = .next t
          ∧ t.ab = q ∧ ReactsLio s.tide.running s.lio t.lio ∧ (match c.lane with
            | .A => (t.port c.port.val).rxNowA
            | .B => (t.port c.port.val).rxNowB) = true
          ∧ t = { s with
              ab := q, ba := t.ba, tide := { s.tide with budget := t.tide.budget }, intake := t.intake, nodes := t.nodes,
              a := t.a, b := t.b, ev := t.ev, evb := t.evb, rcd := t.rcd, moor := t.moor, ports := t.ports, twin := t.twin,
              tx := t.tx, draws := t.draws, settle := t.settle, resets := t.resets, svc := t.svc, lio := t.lio,
              dict := { s.dict with commitBy := t.dict.commitBy } }
          ∧ (let i : Intake := { s.intake with bCopies := s.intake.bCopies.filter fun x => x.copy ≠ k }
            let p := s.port c.port.val
            let p1 := t.port c.port.val
            let node := c.f.src.toNat
            let dup (used : CloseEnt) : Prop := t.intake = i ∧ t.ba = s.ba ∧ p1.dup = sat18 p.dup ∧ p1.late = p.late
              ∧ p1.oot = p.oot ∧ p1.cdiv = (if c.f.payload = used.payload then p.cdiv else sat18 p.cdiv)
              ∧ (c.f.payload ≠ used.payload → s.runs .A = true → t.fired (52 + 8 * c.port.val) = true)
            let late : Prop := t.intake = i ∧ t.ba = s.ba ∧ p1.late = sat18 p.late ∧ p1.dup = p.dup ∧ p1.oot = p.oot
            let oot : Prop := t.intake = i ∧ t.ba = s.ba ∧ p1.oot = sat18 p.oot ∧ p1.dup = p.dup ∧ p1.late = p.late
            let kept (j : Intake) : Prop := t.intake = j ∧ p1.dup = p.dup ∧ p1.late = p.late ∧ p1.oot = p.oot
            if c.f.kind = 0 then
              if c.f.tide = s.now then
                (Config.tickAt 600 < s.tide.tick → s.runs .A = true → t.fired 7 = true)
                ∧ match s.intake.closeB.find? fun e => e.node = node with
                  | some used => dup used
                  | none => if s.intake.bClosed then late
                    else kept { i with closeB := s.intake.closeB ++ [c.entry] } ∧ t.ba = s.ba ++ [.landing c.entry]
              else if c.f.tide = s.now + 1 then
                if s.tide.ph = 5 then kept { i with held := s.intake.held ++ [c] } ∧ t.ba = s.ba else oot
              else if c.f.tide = s.now - 1 then
                (s.runs .A = true → t.fired 7 = true)
                ∧ match s.intake.prevB.find? fun e => e.node = node with
                  | some used => dup used
                  | none => late
              else oot
            else
              let a : RxCopy := { (s.intake.aCopies.find? fun x => x.copy = k).getD c with
                tap := some { since := s.now, octets := c.f.payload } }
              t.ba = s.ba ∧ match dupTake s.intake.dups a.f with
                | none => t.intake = i ∧ p1.dup = sat18 p.dup
                | some ws => kept (if a.f.kind = 3 then { i with dups := ws, landedEnrol := s.intake.landedEnrol ++ [a] }
                  else if a.f.unit = s.unitBit then { i with dups := ws, landedSvc := s.intake.landedSvc ++ [a] }
                  else { i with dups := ws })))
    ∧ (s.runs .A = false → exec .landingNoticeReceived s = .next s)
    ∧ (∀ (e : CloseEnt) (q : List GwFrame), s.runs .A = true →
        takeFrame s.ba GwFrame.isLanding = some (.landing e, q) →
        exec .landingNoticeReceived s = .next { s with ba := q, intake := { s.intake with noticesA := s.intake.noticesA ++ [e] } })

/-- At intake close the intake set is closed and its marker sent, the writes of class N join the tide, each front end
takes the majority of its five reads and judges both supplies, a moored die, one in reset or one whose switch a failed
test has opened commands no output, Channel B walks the whole net, and the edge of intake close reaches the capture
inputs. At the marker the A-die takes every notice before it, lists each node at its first landed copy, keeps the status
words, counts and reports every absent enrolled node and every node that reports a divergence, and Channel A reconciles
and evaluates (R27, R37, R51, R73, R158, R163, R184, R186, R219, R239). -/
def Obligations.IntakeClosesOnBothDies : Prop :=
  ∀ (s : State), Shaped s →
    (∀ pins, s.tide.running = false ∨ s.tide.ph ≠ 0 → exec (.intakeClose pins) s = .next s)
    ∧ (∀ pins, s.tide.running = true → s.tide.ph = 0 → ∃ t u, exec (.intakeClose pins) s = .next t ∧ t = capPulse (evalB u) 2
        ∧ Reacts { evalB u with tim := t.tim } t ∧ Reacts { s with
            tide := { s.tide with ph := 1, tick := t.tide.tick },
            intake := { s.intake with bClosed := s.intake.bClosed || s.runs .B },
            ba := s.ba ++ (if s.runs .B then [.closeMarker s.now] else []), lio := t.lio,
            eva := { s.eva with
              nwThis := [], nwVal := t.eva.nwVal, swap := s.eva.swap && decide (s.man.stage = 6) } } u
        ∧ t.tide.tick.toNat = max s.tide.tick.toNat (Config.tickAt 700).toNat
        ∧ (∀ x, x ∈ t.eva.nwVal ↔ (x ∈ s.eva.nwVal ∧ ∀ y ∈ s.eva.nwThis, y.1 ≠ x.1)
            ∨ ∃ l r, s.eva.nwThis = l ++ x :: r ∧ ∀ y ∈ r, y.1 ≠ x.1)
        ∧ (∀ k : Fin 32,
            t.lio.inA.getLsbD k.val = decide (3 ≤ countIf pins.inA fun r => r.getLsbD k.val)
            ∧ t.lio.inB.getLsbD k.val = decide (3 ≤ countIf pins.inB fun r => r.getLsbD k.val)
            ∧ (t.lio.inA.getLsbD k.val ≠ t.lio.inB.getLsbD k.val → s.lio.disc.getD k.val 0 = 3 → s.runs .A = true →
                t.fired 94 = true))
        ∧ t.lio.flt = s.lio.fltNext ∧ t.lio.isens = pins.isens ∧ t.lio.vsupA = pins.supA ∧ t.lio.vsupB = pins.supB
        ∧ (∀ (d : Die) (q : Fin 16),
            (match d with
              | .A => t.lio.cmdA
              | .B => t.lio.cmdB).getLsbD q.val = true →
            s.mode = .live ∧ (outWord s d q.val).getLsbD 0 = true ∧ (u.die d).mooring = false ∧ s.runs d = true
              ∧ t.lio.qovl.getLsbD q.val = false ∧ t.lio.heldOff q.val = false ∧ t.lio.opened d q.val = false)
        ∧ t.lio.regOvl = t.lio.qovl ∧ t.lio.regFlt = t.lio.qflt
        ∧ (s.runs .A = true →
            (pins.supA.toNat < 1920 ∧ s.lio.uvA = 3 ∨ pins.supA2.toNat < 1920 ∧ s.lio.uvA2 = 3 → t.fired 107 = true)
            ∧ (pins.supB.toNat < 1920 ∧ s.lio.uvB = 3 ∨ pins.supB2.toNat < 1920 ∧ s.lio.uvB2 = 3 → t.fired 108 = true)
            ∧ (3200 < pins.supA.toNat ∧ s.lio.ovA = 1 ∨ 3200 < pins.supB.toNat ∧ s.lio.ovB = 1
                ∨ 3200 < pins.supA2.toNat ∧ s.lio.ovA2 = 1 ∨ 3200 < pins.supB2.toNat ∧ s.lio.ovB2 = 1 → t.fired 109 = true)))
    ∧ (s.runs .A = false ∨ s.tide.running = false ∨ splitClose s.ba = none → exec .closeListReceived s = .next s)
    ∧ (∀ (es : List CloseEnt) (q : List GwFrame), s.runs .A = true → s.tide.running = true → splitClose s.ba = some (es, q) →
        ∃ t u, exec .closeListReceived s = .next t ∧ t = evalA u ∧ t.ba = q ∧ t.ab = s.ab ∧ s.tx <+: t.tx
          ∧ t.tide = { s.tide with closed := true } ∧ t.intake.noticesA = s.intake.noticesA ++ es
          ∧ t.intake = { s.intake with noticesA := s.intake.noticesA ++ es, closeA := t.intake.closeA }
          ∧ (∀ e, e ∈ t.intake.closeA ↔ ∃ l r, s.intake.noticesA ++ es = l ++ e :: r ∧ ∀ x ∈ l, x.node ≠ e.node)
          ∧ (∀ n, n < s.nodes.length →
              (∀ e, e ∈ t.intake.closeA → e.node = n → (t.nodes.getD n {}).status = e.status
                ∧ (t.nodes.getD n {}).lastTide = s.now ∧ (t.nodes.getD n {}).absent = (s.nodes.getD n {}).absent
                ∧ (e.status.getLsbD 12 = true →
                    (t.nodes.getD n {}).tdiv = sat16 (s.nodes.getD n {}).tdiv ∧ t.fired (53 + 8 * e.port.val) = true)
                ∧ ((s.intake.aCopies.any fun c => c.copy = e.copy) = false → t.fired 17 = true))
              ∧ ((∀ e, e ∈ t.intake.closeA → e.node ≠ n) →
                  (s.enrolledNow n = false → t.nodes.getD n {} = s.nodes.getD n {})
                  ∧ (s.enrolledNow n = true → t.fired 33 = true
                    ∧ t.nodes.getD n {} = { s.nodes.getD n {} with absent := (t.nodes.getD n {}).absent }
                    ∧ (t.nodes.getD n {}).absent.toNat = min ((s.nodes.getD n {}).absent.toNat + 1) (2 ^ 24 - 1))))
          ∧ t = { s with
              ba := q, tide := t.tide, intake := t.intake, nodes := t.nodes, a := t.a, b := t.b, ev := t.ev, evb := t.evb,
              rcd := t.rcd, moor := t.moor, ports := t.ports, twin := t.twin, tx := t.tx, draws := t.draws,
              settle := t.settle, resets := t.resets, svc := t.svc, eva := t.eva, rows := t.rows,
              dict := { s.dict with commitBy := t.dict.commitBy } })

/-- At the commit fence each running die with an armed net makes its working words and states the committed ones, valid
where they were provisional, and its committed words the working ones, overlaid by its final moor set and by what is
moored in force; fault moorings of the tide come into force, provisional values end, and the end of the comparison stands
among the tide's peaks. A comparison that has not reached its verdict fires source 2 and moors the module. The edge of the
fence then reaches the capture inputs (R57, R61 to R63, R78, R153, R168 to R170, R180, R344). -/
def Obligations.FencesCommitTheTide : Prop :=
  ∀ (s : State), Shaped s →
    (s.tide.running = false ∨ s.tide.cfence = true ∨ 3 ≤ s.tide.ph.toNat → exec .commitFence s = .next s)
    ∧ (s.tide.running = true → s.tide.cfence = false → s.tide.ph.toNat < 3 → ∃ t u, exec .commitFence s = .next t
        ∧ t = capPulse u 3 ∧ Reacts { u with tim := t.tim } t
        ∧ u.tide = { s.tide with ph := 2, tick := u.tide.tick, cfence := true, cnum := s.now, budget := u.tide.budget }
        ∧ u.tide.tick.toNat = max s.tide.tick.toNat (Config.tickAt 1650).toNat
        ∧ (3 < s.tide.budget.length → (u.tide.budget.getD 3 0).toNat = max (s.tide.budget.getD 3 0).toNat (phaseEnd u 1650).toNat)
        ∧ (∀ j, j ≠ 3 → u.tide.budget.getD j 0 = s.tide.budget.getD j 0)
        ∧ (∀ d : Die, (u.die d).formed = true
            ∧ if s.runs d && (s.die d).armed then
                (u.die d).committed = (s.die d).working.map (fun c => (c.1, unprov c.2))
                ∧ (u.die d).working = (s.die d).committed ∧ (u.die d).inst = (s.die d).shadow
                ∧ (u.die d).overlay = (u.die d).final ||| s.mooredG
                ∧ (u.die d).overlayAll = (s.mooredM || u.moor.faultM || (u.die d).finalMoor)
              else (u.die d).committed = (s.die d).committed ∧ (u.die d).working = (s.die d).working
                ∧ (u.die d).inst = (s.die d).inst
                ∧ (u.die d).overlay = (s.die d).overlay ∧ (u.die d).overlayAll = (s.die d).overlayAll)
        ∧ u.moor = { s.moor with
            faultG := s.moor.faultG ||| u.a.final ||| u.b.final ||| s.moor.cmpG, cmpG := 0, faultM := u.moor.faultM,
            pendM := false, newG := u.moor.newG, newM := u.moor.newM, gSrc := u.moor.gSrc, mSrc := u.moor.mSrc,
            toA := u.moor.toA, toB := u.moor.toB, entries := u.moor.entries, moorFrameAt := u.moor.moorFrameAt,
            moorFrameDue := u.moor.moorFrameDue }
        ∧ (s.faultMoored = true → u.moor.faultM = true)
        ∧ (s.a.formed = true → s.b.formed = true → undecided s .A = false → undecided s .B = false →
            u.a.final = s.a.final ∧ u.b.final = s.b.final ∧ u.moor.faultM = s.faultMoored)
        ∧ s.tx <+: u.tx
        ∧ (∀ d : Die, undecided s d = true →
            (s.runs .A = true → u.fired 2 = true)
            ∧ ((s.die d).formed = false → (u.die d).finalMoor = true ∧ (u.die d).mooring = true ∧ u.moor.faultM = true))
        ∧ (∀ x, x ∈ u.eva.prov → x.2.1 = 0 ∧ x.2.2 = true)
        ∧ u.eva = { s.eva with
            prov := u.eva.prov, cancel := s.eva.cancelNow, recomp := s.eva.recompNow,
            bank := if s.a.armed then !s.eva.bank else s.eva.bank }
        ∧ (s.adopts = false → u.twin.groupDiff = 0 ∧ u.twin.gdiff = 0)
        ∧ u = { s with
            tide := u.tide, a := u.a, b := u.b, ev := u.ev, evb := u.evb, rcd := u.rcd, moor := u.moor, ports := u.ports,
            twin := u.twin, tx := u.tx, draws := u.draws, settle := u.settle, resets := u.resets, svc := u.svc, eva := u.eva,
            rows := u.rows, dict := { s.dict with commitBy := u.dict.commitBy } })

/-- Emission hands over the mirror that waits, starts the pulse of the tide and the output tests, none in a moored module,
and sends the edge of emission start to the capture inputs. It queues, on the lanes that are up, an OUTPUT for every
convoy that the unit does not withhold, where it sends at all and both dies have committed the tide. No frame is built
without the B-die; ENROL frames leave only where the unit sends, at a Follower without frame 0 a withdrawal of the zone
alone, and SERVICE frames not from a unit of a pair that a fault has moored. The guard phase begins with empty queues:
frames that have started leave on their lane, an OUTPUT that has not is dropped with source 4, and a SERVICE or ENROL
frame that has left on no lane is held over (R59, R221, R222, R225, R248, R251, R253). -/
def Obligations.EmissionAndGuardSendFrames : Prop :=
  ∀ (s : State), Shaped s →
    (s.tide.running = false ∨ 4 ≤ s.tide.ph.toNat → exec .emissionStart s = .next s)
    ∧ (s.tide.running = true → s.tide.ph.toNat < 4 → ∃ t u s0 s1, exec .emissionStart s = .next t
        ∧ s0 = { s with
            tide := { s.tide with ph := 4, tick := s0.tide.tick, budget := s0.tide.budget },
            moor := (if s.tide.ph.toNat < 3 then (queuedCommit s).moor else s.moor),
            tx := s.tx ++ s.twin.mirQueue, twin := { s.twin with mirQueue := [] } }
        ∧ s0.tide.tick.toNat = max s.tide.tick.toNat (Config.tickAt 1750).toNat
        ∧ s1 = lioEmission s0 ∧ s1 = { s0 with lio := s1.lio }
        ∧ (s.mode ≠ .enrol → s.mode ≠ .live → s1 = s0)
        ∧ (s.mode = .enrol ∨ s.mode = .live → s.pws.hold = false → s1.lio.pulse = pulseFeed s
            ∧ (s.mooredM = true → s1.lio.tests = []))
        ∧ u = capPulse s1 4 ∧ Reacts { s1 with tim := u.tim } u
        ∧ u.tx <+: t.tx ∧ t.svc.outQ = []
        ∧ (let sends := fieldSends u && s.tide.cfence && s.runs .B
          let queue (t : State) (p : Fin 4) (l : Lane) : List Lst := match l with
            | .A => (t.port p.val).queueA
            | .B => (t.port p.val).queueB
          let withheld (c : Convoy) : Prop := s.netA.convoyGroups c &&& heldGroups u ≠ 0
          (∀ (p : Fin 4) (l : Lane), laneUp u p.val l = false → queue t p l = queue u p l)
          ∧ (∀ (p : Fin 4) (l : Lane) (f : Lst), f ∈ queue t p l → f ∈ queue u p l
              ∨ (f.lane = l ∧ f.tide = s.now ∧ f.unit = s.unitBit ∧ s.runs .B = true
                ∧ ((f.kind = 1 ∧ sends = true ∧ ∃ c, c ∈ s.netA.convoys ∧ ¬ withheld c ∧ f = { convoyLst u c with lane := l })
                  ∨ (f.kind = 2 ∧ u.stopsSending = false)
                  ∨ (f.kind = 3 ∧ fieldSends u = true
                    ∧ (u.twin.role = .follower → u.twin.f0Now = false → f.payload = withdrawPayload)))))
          ∧ (sends = true → ∀ c, c ∈ s.netA.convoys → ¬ withheld c → ∀ (p : Fin 4) (l : Lane), c.port = p.val →
              laneUp u p.val l = true → { convoyLst u c with lane := l } ∈ queue t p l)
          ∧ (sends = false → t.twin.wheldNow = s.twin.wheldNow)
          ∧ (sends = true → t.twin.wheldNow
              = BitVec.ofNat 18 (countIf s.netA.convoys fun c => decide (s.netA.convoyGroups c &&& heldGroups u ≠ 0))))
        ∧ t = { u with
            ports := t.ports, nodes := t.nodes, twin := t.twin, tx := t.tx, svc := t.svc, rcd := t.rcd,
            dict := { u.dict with commitBy := t.dict.commitBy } })
    ∧ (∀ unsent, s.tide.running = false ∨ 5 ≤ s.tide.ph.toNat → exec (.guardStart unsent) s = .next s)
    ∧ (∀ unsent : List Nat, s.tide.running = true → s.tide.ph.toNat < 5 → ∃ t, exec (.guardStart unsent) s = .next t
        ∧ t.tide = { s.tide with ph := 5, tick := t.tide.tick, budget := t.tide.budget }
        ∧ t.tide.tick.toNat = max s.tide.tick.toNat (Config.tickAt 1950).toNat
        ∧ (∀ p : Fin 4, (t.port p.val).queueA = [] ∧ (t.port p.val).queueB = []) ∧ s.tx <+: t.tx
        ∧ (let ka (p : Fin 4) : Nat := (s.port p.val).queueA.length - unsent.getD (2 * p.val) 0
          let kb (p : Fin 4) : Nat := (s.port p.val).queueB.length - unsent.getD (2 * p.val + 1) 0
          let lost (p : Fin 4) : List Lst :=
            ((s.port p.val).queueA.drop (ka p) ++ (s.port p.val).queueB.drop (kb p)).filter fun f => f.kind = 1
          let out (p : Fin 4) (l : Lane) (fs : List Lst) : List Tx :=
            if laneUp s p.val l then fs.map fun f => Tx.lst (.field p l) f else []
          (∀ p, lost p ≠ [] → (∀ q : Fin 4, q < p → lost q = []) → s.runs .A = true → t.fired 4 = true)
          ∧ ((∀ p, lost p = []) →
            t = { s with tide := t.tide, ports := t.ports, tx := t.tx }
            ∧ t.tx = s.tx ++ (List.finRange 4).flatMap (fun p =>
                out p .A ((s.port p.val).queueA.take (ka p)) ++ out p .B ((s.port p.val).queueB.take (kb p)))
            ∧ ∀ p : Fin 4,
              let x := s.port p.val
              let key (f : Lst) : BitVec 4 × BitVec 9 × Word := (f.kind, f.subseq, f.dst)
              let left (f : Lst) : Prop := ∃ g, g ∈ x.queueA.take (ka p) ++ x.queueB.take (kb p) ∧ key g = key f
              t.port p.val = { x with queueA := [], queueB := [], held := (t.port p.val).held, txNow := (t.port p.val).txNow }
              ∧ ∃ more, (t.port p.val).held = x.held ++ more ∧ ∀ f, f ∈ more ↔ ¬ left f ∧ (f ∈ x.queueA.drop (ka p)
                  ∨ (f ∈ x.queueB.drop (kb p) ∧ ∀ g, g ∈ x.queueA.drop (ka p) → key g ≠ key f)))))

/-- At a tide start the number goes on by one and the tick and the flags of the last tide return to 0; severities, RAEN,
late class-N writes and level keys written in the last tide are in force; nothing of the last tide's moor commands waits,
and copies held in its guard phase enter the new intake. Without a Manifest commit, a change of period, of role or of
module state and without a mirror to adopt, the commanded and fault moor sets take their commands, an unmooring of what
stands and no mooring of the last tide undoes, the module not in Bench; nodes whose tide has come count as enrolled, each
armed die starts from its committed words, its Degrade groups of after the exchange count now, and each running die sends
its heartbeat and, unless it or the module is moored, gives its Bell the level of the tide. The edge of the tide start
reaches the capture inputs. A change of period withdraws every enrolment and moors a Follower; a commit in force makes the
staged Manifest active; a new module state switches test pulse and sensor feeds; a core halted for Bench resumes with its
end. After a SOFT_RESTART the module starts from Self-test instead, 2^18 tides on. -/
def Obligations.TidesOpen : Prop :=
  ∀ (s : State), Shaped s →
    (s.tide.running = false → exec .tideStart s = .next s)
    ∧ (s.tide.running = true → s.start.restart = true → ∃ t, exec .tideStart s = .next t ∧ t.mode = .selfTest
        ∧ t.tide.num = tideAdd s.now 262144 ∧ t.tide.running = true ∧ t.pws.cause = 4 ∧ t.twin.unitId = s.twin.unitId
        ∧ t.a.armed = false ∧ t.b.armed = false ∧ t.moor.startup = true ∧ t.moor.cmdG = 0 ∧ t.moor.faultG = 0
        ∧ (∀ d, t.runs d = s.runs d) ∧ t.pending = s.pending ∧ s.tx <+: t.tx)
    ∧ (s.tide.running = true → s.start.restart = false → ∃ t u, exec .tideStart s = .next t
        ∧ t = intakeNext (provNotify (capPulse u 1))
        ∧ (s.intake.held = [] → Reacts { u with tim := t.tim, intake := t.intake } t)
        ∧ t.tide.num = s.tide.num + 1 ∧ t.tide.ph = 0 ∧ t.tide.tick = 0 ∧ t.tide.aDone = false ∧ t.tide.bDone = false
        ∧ t.tide.closed = false ∧ t.tide.cfence = false ∧ t.tide.running = true ∧ t.tide.cnum = s.tide.cnum
        ∧ t.moor.addG = 0 ∧ t.moor.addM = false ∧ t.moor.remG = 0 ∧ t.moor.remM = false ∧ t.moor.exchanged = false
        ∧ t.moor.remFG = 0 ∧ t.moor.remFM = false
        ∧ (∀ b : Fin 18,
            let e := s.ev.getD b.val (EvBlock.initial b.val)
            let f := t.ev.getD b.val (EvBlock.initial b.val)
            f.sevL = e.nextL.getD e.sevL ∧ f.sevH = e.nextH.getD e.sevH ∧ f.nextL = none ∧ f.nextH = none)
        ∧ t.eva.raenNow = s.eva.raen ∧ t.eva.nwThis = s.eva.nwThis ++ s.eva.nwLater ∧ t.eva.nwLater = []
        ∧ t.dict.keysNext = [] ∧ t.dict.protNext = []
        ∧ t.intake.held = [] ∧ t.intake.bClosed = false ∧ t.intake.prevB = s.intake.closeB ∧ t.intake.closeA = []
        ∧ (∀ n, (∃ e, e ∈ t.intake.closeB ∧ e.node = n) ↔ ∃ c, c ∈ s.intake.held ∧ c.f.src.toNat = n)
        ∧ t.twin.hbA = false ∧ t.twin.hbB = false ∧ t.twin.hbOnA = false ∧ t.twin.hbOnB = false ∧ t.twin.leaderNow = false
        ∧ t.twin.adopt = s.twin.mirOk
        ∧ t.twin.hbPrevA = s.twin.hbA ∧ t.twin.hbPrevB = s.twin.hbB
        ∧ t.twin.wheld = s.twin.wheldNow ∧ t.twin.mirA = [] ∧ t.twin.mirB = []
        ∧ (∀ p : Fin 4, (t.port p.val).rxA = (s.port p.val).rxNowA ∧ (t.port p.val).rxB = (s.port p.val).rxNowB)
        ∧ s.tx <+: t.tx
        ∧ (let still := s.man.stage ≠ 6 ∧ s.twin.mirOk = false ∧ s.start.modeNext = none
          let quiet := s.mode ≠ .translate ∧ s.man.rebuildSince = none ∧ s.rows = []
          let bench := s.start.benchNext.getD s.start.bench
          let kept := s.moor.addG ||| s.moor.newG
          let g := gMinus s.moor.remG kept
          let ends := !s.moor.addM && !s.moor.newM && !bench
          (still → s.tide.perNext = none → s.twin.roleNext = none → s.twin.role ≠ .resync → 3 ≤ s.tide.ph.toNat →
            t.mode = s.mode ∧ t.man = { s.man with rebuildSince := t.man.rebuildSince } ∧ t.tide.per = s.tide.per
            ∧ t.moor.cmdG = gMinus s.moor.cmdG g ||| s.moor.addG
            ∧ t.moor.cmdM = ((s.moor.cmdM && !(s.moor.remM && ends)) || s.moor.addM)
            ∧ t.moor.adG = gMinus s.moor.adG g ∧ t.moor.adM = (s.moor.adM && !(s.moor.remM && ends))
            ∧ t.moor.faultG = gMinus s.moor.faultG (gMinus s.moor.remFG kept)
            ∧ t.moor.faultM = (s.moor.faultM && !(s.moor.remFM && ends))
            ∧ t.moor.startup = (s.moor.startup && !(s.moor.remFM && ends))
            ∧ (quiet →
              u.twin.role = s.twin.role ∧ u.moor.newG = s.a.degradeNext ||| s.b.degradeNext
              ∧ u.nodes = s.nodes.map (fun x => if x.enrolAt.any fun e => reached (s.now + 1) e then
                  { x with enrolled := true, enrolAt := none, reenrol := false } else x)
              ∧ (∀ d : Die,
                let x := s.die d
                let moored := x.mooring && !(s.mooredM && !u.mooredM && !s.moor.pendM)
                let rings := s.runs d && !moored && !u.mooredM
                u.die d = { x with
                  working := if x.armed then x.committed else x.working, shadow := if x.armed then x.inst else x.shadow,
                  evaluated := if x.armed then [] else x.evaluated, sigs := [], dig := [], otherSigs := [], otherDig := none,
                  sigDeadline := false, verdictMoor := false, many := false, verdict := [], otherVerdict := none,
                  otherDegrade := none, degrade := x.degradeNext, degradeNext := 0, found := 0, formed := false,
                  mooring := moored, bellRun := rings, bell := if rings then bellLevel d (s.now + 1) else x.bell }
                ∧ u.gwFor (Die.other d) = (match d with
                    | .A => s.ab.filter GwFrame.isVerdictA
                    | .B => []) ++ if s.runs d then [.heartbeat (s.now + 1) x.finalCrc] else [])))
          ∧ (still → ∀ p t0, s.tide.perNext = some (p, t0) → later t0 (s.now + 1) = false →
              t.tide.per = p ∧ t.tide.perNext = none ∧ (s.armedMode = true → t.man.enrolledDig = t.man.active
                ∧ ∀ n, n < t.nodes.length → (t.nodes.getD n {}).enrolled = false ∧ (t.nodes.getD n {}).wantOffer = true)
              ∧ (s.twin.role = .follower → s.moor.remFM = false → s.moor.qRemFM = false → t.moor.startup = true))
          ∧ (still → ∀ p t0, s.tide.perNext = some (p, t0) → later t0 (s.now + 1) = true →
              t.tide.per = s.tide.per ∧ t.tide.perNext = some (p, t0))
          ∧ (still → quiet → s.twin.role ≠ .resync → ∀ r c, s.twin.roleNext = some (r, c) → u.twin.role = r)
          ∧ (s.man.stage ≠ 6 → s.twin.mirOk = false → ∀ m, s.start.modeNext = some m → t.mode = m ∧ t.start.modeNext = none
              ∧ t.lio.lit = (!s.pws.hold && decide (m = .enrol ∨ m = .live))
              ∧ t.lio.sens = (!s.pws.hold && decide (m = .load ∨ m = .translate ∨ m = .enrol ∨ m = .live)))
          ∧ t.start.bench = bench ∧ t.start.benchNext = none ∧ (bench = false → t.tim.halt = false)
          ∧ (s.man.stage = 6 → s.twin.mirOk = false → s.start.modeNext = none → ∀ f, s.man.forceAt = some f → reached (s.now + 1) f = true →
              t.man.active = s.man.stageDig ∧ t.man.stage = 0 ∧ t.man.seq = s.man.commitSeq
              ∧ t.man.slot = BitVec.ofNat 9 (inactiveSlot s) ∧ t.man.forceAt = none ∧ t.a.net = some (s.man.staged.getD Net.empty))
          ∧ (s.man.stage = 6 → s.twin.mirOk = false → (s.man.forceAt.all fun f => later f (s.now + 1)) = true →
              t.man = { s.man with enrolledDig := t.man.enrolledDig, rebuildSince := t.man.rebuildSince })))

/-- Mirroring begins once in a tide: the commands that wait commit, the step signatures of a proof cross the Gangway and
are compared, and a Leader that has heard its peer and committed the tide on both dies fixes its offers and its mirror, on
every Hawser lane that is up. What is not handed over by emission start is not sent, with source 3. A mirror frame of this
tide of the other unit is kept once, each die its own copy; at the end of emission a Follower or Resync unit judges the
mirror: complete and in agreement it is adopted, otherwise counted, with source 84 or 85 (R58, R176, R226, R246, R248,
R249, R255). -/
def Obligations.MirrorsLeaveAndAreJudged : Prop :=
  ∀ (s : State), Shaped s →
    (s.tide.running = false ∨ 3 ≤ s.tide.ph.toNat → exec .mirroringStart s = .next s)
    ∧ (s.tide.running = true → s.tide.ph.toNat < 3 → ∃ t u s0, exec .mirroringStart s = .next t
        ∧ s0 = { s with
            tide := { s.tide with ph := 3, tick := s0.tide.tick },
            moor := { s.moor with
              addG := s.moor.addG ||| s.moor.qAddG, addM := s.moor.addM || s.moor.qAddM,
              remG := s.moor.remG ||| s.moor.qRemG, remM := s.moor.remM || s.moor.qRemM,
              remFG := s.moor.remFG ||| s.moor.qRemFG, remFM := s.moor.remFM || s.moor.qRemFM,
              qAddG := 0, qAddM := false, qRemG := 0, qRemM := false, qRemFG := 0, qRemFM := false } }
        ∧ s0.tide.tick.toNat = max s.tide.tick.toNat (Config.tickAt 1650).toNat
        ∧ (s.man.proof = none ∨ s.man.stage ≠ 3 → u = s0)
        ∧ (∀ p, s.man.proof = some p → s.man.stage = 3 →
            if p.sent = [] ∧ p.step < 4096 then u = s0
            else match proofCompare p with
              | .more q => u = { s0 with man := { s.man with proof := some q } }
              | .passed => u = { s0 with man := { s.man with
                  stage := 4, stageReason := 0, batches := p.batches, proof := none } }
              | .failed subj => u = proofFail s0 subj ∧ ∃ s1, Fires s0 s1 31 ∧ Recorded { s1 with man := { s.man with
                  stage := 5, stageReason := 0o020, proof := none } } u)
        ∧ t = { u with twin := t.twin }
        ∧ (let sends := u.twin.role = .leader ∧ (s.twin.hbA = true ∨ s.twin.hbB = true) ∧ s.tide.cfence = true
            ∧ s.a.armed = true ∧ s.b.armed = true ∧ s.runs .A = true ∧ s.runs .B = true
          (¬ sends → t.twin = u.twin)
          ∧ (sends → ∃ os, t.twin = { u.twin with offers := some os, mirQueue := t.twin.mirQueue } ∧ os.length ≤ 64
              ∧ (∀ o, o ∈ os → (s.nodes.getD o.1 {}).wantOffer = true ∧ o.2 = (s.nodes.getD o.1 {}).withdraw)
              ∧ ∀ x, x ∈ t.twin.mirQueue → ∃ l f, x = Tx.lst (.hawser l) f ∧ s.twin.up l = true ∧ f.lane = l ∧ f.kind = 9
                  ∧ f.tide = s.now ∧ f.unit = s.unitBit)))
    ∧ (s.tide.ph ≠ 3 ∨ s.twin.mirQueue = [] → exec .mirrorLate s = .next s)
    ∧ (s.tide.ph = 3 → s.twin.mirQueue ≠ [] → ∃ t, exec .mirrorLate s = .next t
        ∧ Fires { s with twin := { s.twin with mirQueue := [] } } t 3)
    ∧ (∀ (l : Lane) (fa fb : Octets),
        let salt := s.man.active.take 4
        (hawserAccept s l 9 hawserMax salt fa fb = none → exec (.mirrorFrameReceived l fa fb) s = .next s)
        ∧ ∀ f g, hawserAccept s l 9 hawserMax salt fa fb = some f → lstParse s.netB.vid s.netB.etype hawserMax fb = some g →
            (f.tide ≠ s.now ∨ f.unit = s.unitBit ∨ 4 < s.tide.ph.toNat ∨ s.twin.mirChecked = true
                ∨ dupTake s.twin.hbWins f = none →
              exec (.mirrorFrameReceived l fa fb) s = .next s)
            ∧ ∀ ws, f.tide = s.now → f.unit ≠ s.unitBit → s.tide.ph.toNat ≤ 4 → s.twin.mirChecked = false →
              dupTake s.twin.hbWins f = some ws →
              exec (.mirrorFrameReceived l fa fb) s = .next { s with twin := { s.twin with
                hbWins := ws, mirA := s.twin.mirA ++ [(f.subseq.toNat, f.payload)],
                mirB := s.twin.mirB ++ [(f.subseq.toNat, g.payload)],
                f0Now := s.twin.f0Now || (decide (f.subseq = 0) && decide (s.tide.ph.toNat < 4)) } })
    ∧ (let may := s.adopts = true ∧ s.runs .B = true ∧ 4 ≤ s.tide.ph.toNat ∧ s.twin.mirChecked = false
      let whole := mirWhole s
      let ok := whole && mirAgrees s
      (¬ may → exec .mirrorCompletenessCheck s = .next s)
      ∧ (may → ∃ t s1, exec .mirrorCompletenessCheck s = .next t ∧ s1 = { s with twin := s1.twin }
          ∧ FiresIf (!ok) s1 t (if whole then 85 else 84)
          ∧ s1.twin = { s.twin with
              mirChecked := true, mirList := s.twin.mirA.map (·.1), nfr := BitVec.ofNat 5 s.twin.mirA.length,
              f0 := s.twin.f0Now, groupDiff := mirDiff s, gdiff := BitVec.ofNat 18 (gCount (mirDiff s)),
              diffRun := s1.twin.diffRun, mirOk := ok, mirMiss := if ok then s.twin.mirMiss else sat18 s.twin.mirMiss,
              health := s1.twin.health }
          ∧ (∀ g n, (g, n) ∈ s1.twin.diffRun → g < 512 ∧ gHas (gMinus (mirDiff s) s.netA.localGroups) g = true ∧ 1 ≤ n)))

/-- A heartbeat that both dies accept, of the peer's station and the other unit, is heard on its lane, as this tide's
where it carries the tide in progress, and counted once; one of this unit, another station, or at a Solo unit fires source
88. A Leader of Unit 1 that hears a Leader plans Resync, a Follower that loses its Leader plans Leader, one whose Leader
runs another Manifest Resync, an isolated unit Resync or Leader. A Resync unit takes its Leader's tide and counts the
tides in which it is in step. Two lanes without this tide's heartbeat at the deadline are a loss: source 83, and when the
loss begins a settled Follower isolates itself and an unsettled unit starts to count. The time-outs of a Resync unit, of
the isolation hold, of a stalled Resync and of a commit in a pair act once due (R246, R247, R256, R258 to R260, R262,
R263). -/
def Obligations.TheTwinHearsAndLosesItsPeer : Prop :=
  ∀ (s : State), Shaped s →
    (∀ (l : Lane) (fa fb : Octets),
        let acc := hawserAccept s l 8 105 [0, 0, 0, 0] fa fb
        (acc = none → exec (.hawserHeartbeatReceived l fa fb) s = .next s)
        ∧ ∀ f, acc = some f →
          (f.payload.length ≠ 105 → exec (.hawserHeartbeatReceived l fa fb) s = .next s)
          ∧ (let strange := s.twin.role = .solo ∨ s.netA.twin = false ∨ f.unit = s.unitBit
                ∨ hbStation f.payload ≠ s.twin.unitId.toNat / 2
            (f.payload.length = 105 → strange → ∃ t, exec (.hawserHeartbeatReceived l fa fb) s = .next t ∧ Fires s t 88)
            ∧ (f.payload.length = 105 → ¬ strange → ∃ t, exec (.hawserHeartbeatReceived l fa fb) s = .next t
                ∧ (match l with
                    | .A => t.twin.hbA = true ∧ t.twin.hbOnA = (s.twin.hbOnA || decide (f.tide = t.now))
                        ∧ t.twin.hbB = s.twin.hbB ∧ t.twin.hbOnB = s.twin.hbOnB
                    | .B => t.twin.hbB = true ∧ t.twin.hbOnB = (s.twin.hbOnB || decide (f.tide = t.now))
                        ∧ t.twin.hbA = s.twin.hbA ∧ t.twin.hbOnA = s.twin.hbOnA)
                ∧ (dupTake s.twin.hbWins f = none → t = { s with twin := { s.twin with
                    hbA := t.twin.hbA, hbB := t.twin.hbB, hbOnA := t.twin.hbOnA, hbOnB := t.twin.hbOnB } })
                ∧ (∀ ws, dupTake s.twin.hbWins f = some ws →
                    t.twin.hbWins = ws ∧ t.twin.peer = f.payload ∧ t.twin.peerTide = f.tide ∧ s.tx <+: t.tx
                    ∧ (hbDigest f.payload ≠ s.man.active → s.runs .A = true → t.fired 86 = true)
                    ∧ t = { s with
                        twin := t.twin, tide := t.tide, man := t.man, norA := t.norA, norB := t.norB, eva := t.eva,
                        a := t.a, b := t.b, ev := t.ev, evb := t.evb, rcd := t.rcd, moor := t.moor, ports := t.ports,
                        tx := t.tx, draws := t.draws, settle := t.settle, resets := t.resets, svc := t.svc, lio := t.lio,
                        intake := { s.intake with prevB := t.intake.prevB },
                        dict := { s.dict with commitBy := t.dict.commitBy } }
                    ∧ ReactsLio s.tide.running s.lio t.lio
                    ∧ (s.twin.role = .follower → t.twin.role = .follower → hbLeads f.payload = true →
                        hbMoored f.payload = false → hbDigest f.payload ≠ s.man.active →
                        t.twin.roleNext = some (.resync, 9))
                    ∧ (hbDigest f.payload = s.man.active →
                        (s.twin.role = .leader → (hbLeads f.payload && s.unitBit) = true →
                          t.twin.roleNext = some (.resync, 10))
                        ∧ (s.twin.role = .follower → (!hbLeads f.payload || hbMoored f.payload) = true →
                          t.twin.roleNext = some (.leader, 2))
                        ∧ (s.twin.role = .isoSending ∨ s.twin.role = .isoSilent →
                          t.twin.roleNext = some (if hbLeads f.payload then .resync else .leader, 7))
                        ∧ (s.twin.role = .resync → hbLeads f.payload = true → t.tide.num = f.tide
                          ∧ t.twin.leaderNow = true
                          ∧ (let good := !s.faultMoored && s.twin.adopt && decide (s.farDiff = 0)
                            let n := if good then (if s.twin.leaderNow then s.twin.resyncCnt else sat18 s.twin.resyncCnt) else 0
                            t.twin.resyncCnt = n
                            ∧ (64 ≤ n.toNat → s.twin.segs = 0xFFFF → t.twin.roleNext = some (.follower, 8)))))))))
    ∧ (s.pairs = false ∨ s.tide.running = false → exec .heartbeatDeadline s = .next s)
    ∧ (s.pairs = true → s.tide.running = true → ∃ t, exec .heartbeatDeadline s = .next t
        ∧ t.tide = { s.tide with tick := t.tide.tick } ∧ t.tide.tick.toNat = max s.tide.tick.toNat (Config.tickAt 50).toNat
        ∧ t.twin.missA = (if s.twin.hbOnA then 0 else s.twin.missA + 1)
        ∧ t.twin.missB = (if s.twin.hbOnB then 0 else s.twin.missB + 1)
        ∧ (s.twin.hbOnA = false ∧ 2 ≤ s.twin.missA ∨ s.twin.hbOnB = false ∧ 2 ≤ s.twin.missB → t.fired 82 = true)
        ∧ (s.twin.hbOnA = true ∨ s.twin.hbOnB = true → t.twin.unsettled = none ∧ t.twin.lost = false)
        ∧ (s.twin.hbOnA = false → s.twin.hbOnB = false → t.fired 83 = true ∧ t.twin.lost = true
            ∧ (t.twin.role = .follower → s.twin.lost = false → settled s.twin = true →
                t.twin.roleNext = some (.isoSending, 3))
            ∧ (t.twin.role = .leader ∨ t.twin.role = .follower → s.twin.lost = false → settled s.twin = false →
                t.twin.unsettled = some 0)
            ∧ (t.twin.role = s.twin.role → s.twin.lost = true →
                t.twin.unsettled = s.twin.unsettled ∧ t.twin.roleNext = s.twin.roleNext))
        ∧ t = { s with
            twin := t.twin, tide := t.tide, a := t.a, b := t.b, ev := t.ev, evb := t.evb, rcd := t.rcd, moor := t.moor,
            ports := t.ports, tx := t.tx, draws := t.draws, settle := t.settle, resets := t.resets, svc := t.svc,
            dict := { s.dict with commitBy := t.dict.commitBy } })
    ∧ (let due := s.pairs = true ∧ s.armedMode = true ∧ s.twin.role = .resync
          ∧ ((if s.unitBit then 4096 else 16) ≤ s.twin.noLeader ∨ 256 ≤ s.twin.noPeer)
      (¬ due → exec .resyncLeaderTimeout s = .next s)
      ∧ (due → exec .resyncLeaderTimeout s = .next { s with twin := { s.twin with
          roleNext := some (.leader, Config.unlistedCause 1) } }))
    ∧ (let due := s.twin.role = .isoSending
          ∧ reached s.now (tideAdd s.twin.holdSince (s.tides (1000 * s.twin.hold.toNat))) = true
      (¬ due → exec .twinHoldExpiry s = .next s)
      ∧ (due → exec .twinHoldExpiry s = .next { s with twin := { s.twin with roleNext := some (.isoSilent, 6) } }))
    ∧ (let stalls := s.twin.role = .resync ∧ s.twin.stalled = false ∧ 4096 ≤ s.twin.resyncHb ∧ s.twin.resyncCnt.toNat < 64
      let strays := s.twin.role = .follower ∧ ∃ x, x ∈ s.twin.diffRun ∧ 4096 ≤ x.2
      (¬ stalls → ¬ strays → exec .resyncStall s = .next s)
      ∧ (stalls → ∃ t, exec .resyncStall s = .next t ∧ Fires { s with twin := { s.twin with stalled := true } } t 89)
      ∧ (strays → ∃ t, exec .resyncStall s = .next t ∧ Fires s t 89))
    ∧ (let due := s.twin.role = .leader ∧ s.man.stage = 6 ∧ s.twin.cop = 1 ∧ s.man.forceAt = none
          ∧ reached s.now (tideAdd s.man.commitAt 64) = true
      (¬ due → exec .pairCommitTimeout s = .next s)
      ∧ (due → ∃ t, exec .pairCommitTimeout s = .next t ∧ t.man.stage = 4 ∧ t.man.stageReason = 0o021
          ∧ t.man.forceAt = none ∧ t.man.confirmed = false ∧ t.twin.cop = 3
          ∧ t.twin.copLeft = (if s.tide.ph.toNat < 3 then 4 else 5)
          ∧ t = { s with man := t.man, twin := t.twin, norA := t.norA, norB := t.norB, eva := t.eva, rcd := t.rcd }))
end

