-- ==== Sys2Proof/Laws/Lists.lean ====
section
/-!
SUPPORT. Small laws of the fixed-length lists that hold register files: what a change of one element leaves, what it gives,
and that the length stays.
-/

namespace Sys2Proof.Machine

@[simp] theorem listMod_length {α : Type} (l : List α) (n : Nat) (f : α → α) : (listMod l n f).length = l.length := by
  induction l generalizing n with
  | nil => rfl
  | cons x t ih => cases n with
    | zero => rfl
    | succ n => simp [listMod, ih]

theorem listMod_getElem? {α : Type} (l : List α) (n m : Nat) (f : α → α) :
    (listMod l n f)[m]? = if m = n then l[m]?.map f else l[m]? := by
  induction l generalizing n m with
  | nil => simp [listMod]
  | cons x t ih => cases n with
    | zero => cases m <;> simp [listMod]
    | succ n => cases m with
      | zero => simp [listMod]
      | succ m => simp [listMod, ih]

/-- The changed element. -/
theorem listMod_getD_self {α : Type} (l : List α) (n : Nat) (f : α → α) (d : α) (h : n < l.length) :
    (listMod l n f).getD n d = f (l.getD n d) := by
  simp [List.getD_eq_getElem?_getD, listMod_getElem?, List.getElem?_eq_getElem h]

/-- Every other element. -/
theorem listMod_getD_ne {α : Type} (l : List α) (n m : Nat) (f : α → α) (d : α) (h : m ≠ n) :
    (listMod l n f).getD m d = l.getD m d := by
  simp [List.getD_eq_getElem?_getD, listMod_getElem?, h]

/-- A change that changes nothing. -/
theorem listMod_id {α : Type} (l : List α) (n : Nat) : listMod l n (fun x => x) = l := by
  induction l generalizing n with
  | nil => rfl
  | cons x t ih => cases n with
    | zero => rfl
    | succ n => simp [listMod, ih]

/-- Two changes of one element. -/
theorem listMod_comp {α : Type} (l : List α) (n : Nat) (f g : α → α) :
    listMod (listMod l n f) n g = listMod l n (fun x => g (f x)) := by
  induction l generalizing n with
  | nil => rfl
  | cons x t ih => cases n with
    | zero => rfl
    | succ n => simp [listMod, ih]

/-- A change acts on the elements it meets alone. -/
theorem listMod_congr {α : Type} (l : List α) (n : Nat) (f g : α → α) (h : ∀ x ∈ l, f x = g x) :
    listMod l n f = listMod l n g := by
  induction l generalizing n with
  | nil => rfl
  | cons x t ih => cases n with
    | zero => simp [listMod, h x]
    | succ n => simp [listMod, ih n fun y hy => h y (List.mem_cons_of_mem x hy)]

end Sys2Proof.Machine
end

