-- ==== Sys2Proof/Laws/State.lean ====
section
/-!
SUPPORT. What the named updates of State leave and give, field by field, so that no proof unfolds an update. Each `_frame` law
says every field the update does not touch.
-/

namespace Sys2Proof.Machine

@[simp] theorem State.setDie_frame (s : State) (d : Die) (x : DieState) :
    (s.setDie d x).pending = s.pending ∧ (s.setDie d x).mode = s.mode ∧ (s.setDie d x).start = s.start
      ∧ (s.setDie d x).tide = s.tide ∧ (s.setDie d x).ev = s.ev ∧ (s.setDie d x).evb = s.evb
      ∧ (s.setDie d x).evbRegs = s.evbRegs ∧ (s.setDie d x).settle = s.settle ∧ (s.setDie d x).resets = s.resets
      ∧ (s.setDie d x).moor = s.moor ∧ (s.setDie d x).ab = s.ab ∧ (s.setDie d x).ba = s.ba
      ∧ (s.setDie d x).intake = s.intake ∧ (s.setDie d x).eva = s.eva ∧ (s.setDie d x).ports = s.ports
      ∧ (s.setDie d x).nodes = s.nodes ∧ (s.setDie d x).enrol = s.enrol ∧ (s.setDie d x).twin = s.twin
      ∧ (s.setDie d x).lio = s.lio ∧ (s.setDie d x).svc = s.svc ∧ (s.setDie d x).dict = s.dict
      ∧ (s.setDie d x).man = s.man ∧ (s.setDie d x).norA = s.norA ∧ (s.setDie d x).norB = s.norB
      ∧ (s.setDie d x).core = s.core ∧ (s.setDie d x).mem = s.mem ∧ (s.setDie d x).rows = s.rows
      ∧ (s.setDie d x).tim = s.tim
      ∧ (s.setDie d x).chk = s.chk ∧ (s.setDie d x).fus = s.fus ∧ (s.setDie d x).pws = s.pws
      ∧ (s.setDie d x).rcd = s.rcd ∧ (s.setDie d x).bells = s.bells ∧ (s.setDie d x).scrub = s.scrub
      ∧ (s.setDie d x).tx = s.tx ∧ (s.setDie d x).draws = s.draws := by
  cases d <;> simp [State.setDie]

@[simp] theorem State.modDie_frame (s : State) (d : Die) (f : DieState → DieState) :
    (s.modDie d f).pending = s.pending ∧ (s.modDie d f).mode = s.mode ∧ (s.modDie d f).start = s.start
      ∧ (s.modDie d f).tide = s.tide ∧ (s.modDie d f).ev = s.ev ∧ (s.modDie d f).evb = s.evb
      ∧ (s.modDie d f).evbRegs = s.evbRegs ∧ (s.modDie d f).settle = s.settle ∧ (s.modDie d f).resets = s.resets
      ∧ (s.modDie d f).moor = s.moor ∧ (s.modDie d f).ab = s.ab ∧ (s.modDie d f).ba = s.ba
      ∧ (s.modDie d f).intake = s.intake ∧ (s.modDie d f).eva = s.eva ∧ (s.modDie d f).ports = s.ports
      ∧ (s.modDie d f).nodes = s.nodes ∧ (s.modDie d f).enrol = s.enrol ∧ (s.modDie d f).twin = s.twin
      ∧ (s.modDie d f).lio = s.lio ∧ (s.modDie d f).svc = s.svc ∧ (s.modDie d f).dict = s.dict
      ∧ (s.modDie d f).man = s.man ∧ (s.modDie d f).norA = s.norA ∧ (s.modDie d f).norB = s.norB
      ∧ (s.modDie d f).core = s.core ∧ (s.modDie d f).mem = s.mem ∧ (s.modDie d f).rows = s.rows
      ∧ (s.modDie d f).tim = s.tim
      ∧ (s.modDie d f).chk = s.chk ∧ (s.modDie d f).fus = s.fus ∧ (s.modDie d f).pws = s.pws
      ∧ (s.modDie d f).rcd = s.rcd ∧ (s.modDie d f).bells = s.bells ∧ (s.modDie d f).scrub = s.scrub
      ∧ (s.modDie d f).tx = s.tx ∧ (s.modDie d f).draws = s.draws := by
  cases d <;> simp [State.modDie, State.setDie]

@[simp] theorem State.setGwFor_frame (s : State) (d : Die) (q : List GwFrame) :
    (s.setGwFor d q).pending = s.pending ∧ (s.setGwFor d q).mode = s.mode ∧ (s.setGwFor d q).start = s.start
      ∧ (s.setGwFor d q).tide = s.tide ∧ (s.setGwFor d q).ev = s.ev ∧ (s.setGwFor d q).evb = s.evb
      ∧ (s.setGwFor d q).evbRegs = s.evbRegs ∧ (s.setGwFor d q).settle = s.settle ∧ (s.setGwFor d q).resets = s.resets
      ∧ (s.setGwFor d q).moor = s.moor ∧ (s.setGwFor d q).a = s.a ∧ (s.setGwFor d q).b = s.b
      ∧ (s.setGwFor d q).intake = s.intake ∧ (s.setGwFor d q).eva = s.eva ∧ (s.setGwFor d q).ports = s.ports
      ∧ (s.setGwFor d q).nodes = s.nodes ∧ (s.setGwFor d q).enrol = s.enrol ∧ (s.setGwFor d q).twin = s.twin
      ∧ (s.setGwFor d q).lio = s.lio ∧ (s.setGwFor d q).svc = s.svc ∧ (s.setGwFor d q).dict = s.dict
      ∧ (s.setGwFor d q).man = s.man ∧ (s.setGwFor d q).norA = s.norA ∧ (s.setGwFor d q).norB = s.norB
      ∧ (s.setGwFor d q).core = s.core ∧ (s.setGwFor d q).mem = s.mem ∧ (s.setGwFor d q).rows = s.rows
      ∧ (s.setGwFor d q).tim = s.tim
      ∧ (s.setGwFor d q).chk = s.chk ∧ (s.setGwFor d q).fus = s.fus ∧ (s.setGwFor d q).pws = s.pws
      ∧ (s.setGwFor d q).rcd = s.rcd ∧ (s.setGwFor d q).bells = s.bells ∧ (s.setGwFor d q).scrub = s.scrub
      ∧ (s.setGwFor d q).tx = s.tx ∧ (s.setGwFor d q).draws = s.draws := by
  cases d <;> simp [State.setGwFor]

@[simp] theorem State.modFuse_frame (s : State) (d : Die) (f : FuseDie → FuseDie) :
    (s.modFuse d f).pending = s.pending ∧ (s.modFuse d f).mode = s.mode ∧ (s.modFuse d f).start = s.start
      ∧ (s.modFuse d f).tide = s.tide ∧ (s.modFuse d f).ev = s.ev ∧ (s.modFuse d f).evb = s.evb
      ∧ (s.modFuse d f).evbRegs = s.evbRegs ∧ (s.modFuse d f).settle = s.settle ∧ (s.modFuse d f).resets = s.resets
      ∧ (s.modFuse d f).moor = s.moor ∧ (s.modFuse d f).a = s.a ∧ (s.modFuse d f).b = s.b ∧ (s.modFuse d f).ab = s.ab
      ∧ (s.modFuse d f).ba = s.ba ∧ (s.modFuse d f).intake = s.intake ∧ (s.modFuse d f).eva = s.eva
      ∧ (s.modFuse d f).ports = s.ports ∧ (s.modFuse d f).nodes = s.nodes ∧ (s.modFuse d f).enrol = s.enrol
      ∧ (s.modFuse d f).twin = s.twin ∧ (s.modFuse d f).lio = s.lio ∧ (s.modFuse d f).svc = s.svc
      ∧ (s.modFuse d f).dict = s.dict ∧ (s.modFuse d f).man = s.man ∧ (s.modFuse d f).norA = s.norA
      ∧ (s.modFuse d f).norB = s.norB ∧ (s.modFuse d f).core = s.core ∧ (s.modFuse d f).mem = s.mem ∧ (s.modFuse d f).rows = s.rows
      ∧ (s.modFuse d f).tim = s.tim ∧ (s.modFuse d f).chk = s.chk ∧ (s.modFuse d f).pws = s.pws
      ∧ (s.modFuse d f).rcd = s.rcd ∧ (s.modFuse d f).bells = s.bells ∧ (s.modFuse d f).scrub = s.scrub
      ∧ (s.modFuse d f).tx = s.tx ∧ (s.modFuse d f).draws = s.draws := by
  cases d <;> simp [State.modFuse]

@[simp] theorem State.modEv_frame (s : State) (b : Nat) (f : EvBlock → EvBlock) :
    (s.modEv b f).pending = s.pending ∧ (s.modEv b f).mode = s.mode ∧ (s.modEv b f).start = s.start
      ∧ (s.modEv b f).tide = s.tide ∧ (s.modEv b f).evbRegs = s.evbRegs ∧ (s.modEv b f).settle = s.settle
      ∧ (s.modEv b f).resets = s.resets ∧ (s.modEv b f).moor = s.moor ∧ (s.modEv b f).a = s.a ∧ (s.modEv b f).b = s.b
      ∧ (s.modEv b f).ab = s.ab ∧ (s.modEv b f).ba = s.ba ∧ (s.modEv b f).intake = s.intake
      ∧ (s.modEv b f).eva = s.eva ∧ (s.modEv b f).ports = s.ports ∧ (s.modEv b f).nodes = s.nodes
      ∧ (s.modEv b f).enrol = s.enrol ∧ (s.modEv b f).twin = s.twin ∧ (s.modEv b f).lio = s.lio
      ∧ (s.modEv b f).svc = s.svc ∧ (s.modEv b f).dict = s.dict ∧ (s.modEv b f).man = s.man
      ∧ (s.modEv b f).norA = s.norA ∧ (s.modEv b f).norB = s.norB ∧ (s.modEv b f).core = s.core
      ∧ (s.modEv b f).mem = s.mem ∧ (s.modEv b f).rows = s.rows
      ∧ (s.modEv b f).tim = s.tim ∧ (s.modEv b f).chk = s.chk ∧ (s.modEv b f).fus = s.fus
      ∧ (s.modEv b f).pws = s.pws ∧ (s.modEv b f).rcd = s.rcd ∧ (s.modEv b f).bells = s.bells
      ∧ (s.modEv b f).scrub = s.scrub ∧ (s.modEv b f).tx = s.tx ∧ (s.modEv b f).draws = s.draws := by
  unfold State.modEv; split <;> simp

@[simp] theorem State.send_frame (s : State) (x : Tx) :
    (s.send x).pending = s.pending ∧ (s.send x).mode = s.mode ∧ (s.send x).start = s.start ∧ (s.send x).tide = s.tide
      ∧ (s.send x).ev = s.ev ∧ (s.send x).evb = s.evb ∧ (s.send x).evbRegs = s.evbRegs ∧ (s.send x).settle = s.settle
      ∧ (s.send x).resets = s.resets ∧ (s.send x).moor = s.moor ∧ (s.send x).a = s.a ∧ (s.send x).b = s.b
      ∧ (s.send x).ab = s.ab ∧ (s.send x).ba = s.ba ∧ (s.send x).intake = s.intake ∧ (s.send x).eva = s.eva
      ∧ (s.send x).ports = s.ports ∧ (s.send x).nodes = s.nodes ∧ (s.send x).enrol = s.enrol
      ∧ (s.send x).twin = s.twin ∧ (s.send x).lio = s.lio ∧ (s.send x).svc = s.svc ∧ (s.send x).dict = s.dict
      ∧ (s.send x).man = s.man ∧ (s.send x).norA = s.norA ∧ (s.send x).norB = s.norB ∧ (s.send x).core = s.core
      ∧ (s.send x).mem = s.mem ∧ (s.send x).rows = s.rows
      ∧ (s.send x).tim = s.tim ∧ (s.send x).chk = s.chk ∧ (s.send x).fus = s.fus
      ∧ (s.send x).pws = s.pws ∧ (s.send x).rcd = s.rcd ∧ (s.send x).bells = s.bells ∧ (s.send x).scrub = s.scrub
      ∧ (s.send x).draws = s.draws := by
  simp [State.send]

@[simp] theorem State.send_tx (s : State) (x : Tx) : (s.send x).tx = s.tx ++ [x] := rfl

@[simp] theorem State.sendAll_frame (s : State) (xs : List Tx) :
    (s.sendAll xs).pending = s.pending ∧ (s.sendAll xs).mode = s.mode ∧ (s.sendAll xs).start = s.start
      ∧ (s.sendAll xs).tide = s.tide ∧ (s.sendAll xs).ev = s.ev ∧ (s.sendAll xs).evb = s.evb
      ∧ (s.sendAll xs).evbRegs = s.evbRegs ∧ (s.sendAll xs).settle = s.settle ∧ (s.sendAll xs).resets = s.resets
      ∧ (s.sendAll xs).moor = s.moor ∧ (s.sendAll xs).a = s.a ∧ (s.sendAll xs).b = s.b ∧ (s.sendAll xs).ab = s.ab
      ∧ (s.sendAll xs).ba = s.ba ∧ (s.sendAll xs).intake = s.intake ∧ (s.sendAll xs).eva = s.eva
      ∧ (s.sendAll xs).ports = s.ports ∧ (s.sendAll xs).nodes = s.nodes ∧ (s.sendAll xs).enrol = s.enrol
      ∧ (s.sendAll xs).twin = s.twin ∧ (s.sendAll xs).lio = s.lio ∧ (s.sendAll xs).svc = s.svc
      ∧ (s.sendAll xs).dict = s.dict ∧ (s.sendAll xs).man = s.man ∧ (s.sendAll xs).norA = s.norA
      ∧ (s.sendAll xs).norB = s.norB ∧ (s.sendAll xs).core = s.core ∧ (s.sendAll xs).mem = s.mem ∧ (s.sendAll xs).rows = s.rows
      ∧ (s.sendAll xs).tim = s.tim ∧ (s.sendAll xs).chk = s.chk ∧ (s.sendAll xs).fus = s.fus
      ∧ (s.sendAll xs).pws = s.pws ∧ (s.sendAll xs).rcd = s.rcd ∧ (s.sendAll xs).bells = s.bells
      ∧ (s.sendAll xs).scrub = s.scrub ∧ (s.sendAll xs).draws = s.draws := by
  simp [State.sendAll]

@[simp] theorem State.sendAll_tx (s : State) (xs : List Tx) : (s.sendAll xs).tx = s.tx ++ xs := rfl

@[simp] theorem State.modPort_frame (s : State) (n : Nat) (f : Port → Port) :
    (s.modPort n f).pending = s.pending ∧ (s.modPort n f).mode = s.mode ∧ (s.modPort n f).start = s.start
      ∧ (s.modPort n f).tide = s.tide ∧ (s.modPort n f).ev = s.ev ∧ (s.modPort n f).evb = s.evb
      ∧ (s.modPort n f).evbRegs = s.evbRegs ∧ (s.modPort n f).settle = s.settle ∧ (s.modPort n f).resets = s.resets
      ∧ (s.modPort n f).moor = s.moor ∧ (s.modPort n f).a = s.a ∧ (s.modPort n f).b = s.b ∧ (s.modPort n f).ab = s.ab
      ∧ (s.modPort n f).ba = s.ba ∧ (s.modPort n f).intake = s.intake ∧ (s.modPort n f).eva = s.eva
      ∧ (s.modPort n f).nodes = s.nodes ∧ (s.modPort n f).enrol = s.enrol ∧ (s.modPort n f).twin = s.twin
      ∧ (s.modPort n f).lio = s.lio ∧ (s.modPort n f).svc = s.svc ∧ (s.modPort n f).dict = s.dict
      ∧ (s.modPort n f).man = s.man ∧ (s.modPort n f).norA = s.norA ∧ (s.modPort n f).norB = s.norB
      ∧ (s.modPort n f).core = s.core ∧ (s.modPort n f).mem = s.mem ∧ (s.modPort n f).rows = s.rows
      ∧ (s.modPort n f).tim = s.tim
      ∧ (s.modPort n f).chk = s.chk ∧ (s.modPort n f).fus = s.fus ∧ (s.modPort n f).pws = s.pws
      ∧ (s.modPort n f).rcd = s.rcd ∧ (s.modPort n f).bells = s.bells ∧ (s.modPort n f).scrub = s.scrub
      ∧ (s.modPort n f).tx = s.tx ∧ (s.modPort n f).draws = s.draws := by
  simp [State.modPort]

@[simp] theorem State.modPort_ports (s : State) (n : Nat) (f : Port → Port) : (s.modPort n f).ports = listMod s.ports n f := rfl

@[simp] theorem State.modNode_frame (s : State) (n : Nat) (f : NodeRec → NodeRec) :
    (s.modNode n f).pending = s.pending ∧ (s.modNode n f).mode = s.mode ∧ (s.modNode n f).start = s.start
      ∧ (s.modNode n f).tide = s.tide ∧ (s.modNode n f).ev = s.ev ∧ (s.modNode n f).evb = s.evb
      ∧ (s.modNode n f).evbRegs = s.evbRegs ∧ (s.modNode n f).settle = s.settle ∧ (s.modNode n f).resets = s.resets
      ∧ (s.modNode n f).moor = s.moor ∧ (s.modNode n f).a = s.a ∧ (s.modNode n f).b = s.b ∧ (s.modNode n f).ab = s.ab
      ∧ (s.modNode n f).ba = s.ba ∧ (s.modNode n f).intake = s.intake ∧ (s.modNode n f).eva = s.eva
      ∧ (s.modNode n f).ports = s.ports ∧ (s.modNode n f).enrol = s.enrol ∧ (s.modNode n f).twin = s.twin
      ∧ (s.modNode n f).lio = s.lio ∧ (s.modNode n f).svc = s.svc ∧ (s.modNode n f).dict = s.dict
      ∧ (s.modNode n f).man = s.man ∧ (s.modNode n f).norA = s.norA ∧ (s.modNode n f).norB = s.norB
      ∧ (s.modNode n f).core = s.core ∧ (s.modNode n f).mem = s.mem ∧ (s.modNode n f).rows = s.rows
      ∧ (s.modNode n f).tim = s.tim
      ∧ (s.modNode n f).chk = s.chk ∧ (s.modNode n f).fus = s.fus ∧ (s.modNode n f).pws = s.pws
      ∧ (s.modNode n f).rcd = s.rcd ∧ (s.modNode n f).bells = s.bells ∧ (s.modNode n f).scrub = s.scrub
      ∧ (s.modNode n f).tx = s.tx ∧ (s.modNode n f).draws = s.draws := by
  simp [State.modNode]

@[simp] theorem State.modNode_nodes (s : State) (n : Nat) (f : NodeRec → NodeRec) : (s.modNode n f).nodes = listMod s.nodes n f := rfl

@[simp] theorem State.modChk_frame (s : State) (k : Nat) (f : Chk → Chk) :
    (s.modChk k f).pending = s.pending ∧ (s.modChk k f).mode = s.mode ∧ (s.modChk k f).start = s.start
      ∧ (s.modChk k f).tide = s.tide ∧ (s.modChk k f).ev = s.ev ∧ (s.modChk k f).evb = s.evb
      ∧ (s.modChk k f).evbRegs = s.evbRegs ∧ (s.modChk k f).settle = s.settle ∧ (s.modChk k f).resets = s.resets
      ∧ (s.modChk k f).moor = s.moor ∧ (s.modChk k f).a = s.a ∧ (s.modChk k f).b = s.b ∧ (s.modChk k f).ab = s.ab
      ∧ (s.modChk k f).ba = s.ba ∧ (s.modChk k f).intake = s.intake ∧ (s.modChk k f).eva = s.eva
      ∧ (s.modChk k f).ports = s.ports ∧ (s.modChk k f).nodes = s.nodes ∧ (s.modChk k f).enrol = s.enrol
      ∧ (s.modChk k f).twin = s.twin ∧ (s.modChk k f).lio = s.lio ∧ (s.modChk k f).svc = s.svc
      ∧ (s.modChk k f).dict = s.dict ∧ (s.modChk k f).man = s.man ∧ (s.modChk k f).norA = s.norA
      ∧ (s.modChk k f).norB = s.norB ∧ (s.modChk k f).core = s.core ∧ (s.modChk k f).mem = s.mem ∧ (s.modChk k f).rows = s.rows
      ∧ (s.modChk k f).tim = s.tim ∧ (s.modChk k f).fus = s.fus ∧ (s.modChk k f).pws = s.pws
      ∧ (s.modChk k f).rcd = s.rcd ∧ (s.modChk k f).bells = s.bells ∧ (s.modChk k f).scrub = s.scrub
      ∧ (s.modChk k f).tx = s.tx ∧ (s.modChk k f).draws = s.draws := by
  simp [State.modChk]

@[simp] theorem State.modChk_chk (s : State) (k : Nat) (f : Chk → Chk) : (s.modChk k f).chk = listMod s.chk k f := rfl

@[simp] theorem State.modTim_frame (s : State) (n : Nat) (f : Timer → Timer) :
    (s.modTim n f).pending = s.pending ∧ (s.modTim n f).mode = s.mode ∧ (s.modTim n f).start = s.start
      ∧ (s.modTim n f).tide = s.tide ∧ (s.modTim n f).ev = s.ev ∧ (s.modTim n f).evb = s.evb
      ∧ (s.modTim n f).evbRegs = s.evbRegs ∧ (s.modTim n f).settle = s.settle ∧ (s.modTim n f).resets = s.resets
      ∧ (s.modTim n f).moor = s.moor ∧ (s.modTim n f).a = s.a ∧ (s.modTim n f).b = s.b ∧ (s.modTim n f).ab = s.ab
      ∧ (s.modTim n f).ba = s.ba ∧ (s.modTim n f).intake = s.intake ∧ (s.modTim n f).eva = s.eva
      ∧ (s.modTim n f).ports = s.ports ∧ (s.modTim n f).nodes = s.nodes ∧ (s.modTim n f).enrol = s.enrol
      ∧ (s.modTim n f).twin = s.twin ∧ (s.modTim n f).lio = s.lio ∧ (s.modTim n f).svc = s.svc
      ∧ (s.modTim n f).dict = s.dict ∧ (s.modTim n f).man = s.man ∧ (s.modTim n f).norA = s.norA
      ∧ (s.modTim n f).norB = s.norB ∧ (s.modTim n f).core = s.core ∧ (s.modTim n f).mem = s.mem ∧ (s.modTim n f).rows = s.rows
      ∧ (s.modTim n f).chk = s.chk ∧ (s.modTim n f).fus = s.fus ∧ (s.modTim n f).pws = s.pws
      ∧ (s.modTim n f).rcd = s.rcd ∧ (s.modTim n f).bells = s.bells ∧ (s.modTim n f).scrub = s.scrub
      ∧ (s.modTim n f).tx = s.tx ∧ (s.modTim n f).draws = s.draws := by
  simp [State.modTim]

@[simp] theorem State.modTim_tim (s : State) (n : Nat) (f : Timer → Timer) : (s.modTim n f).tim = { s.tim with t := listMod s.tim.t n f } := rfl

@[simp] theorem State.modLio_frame (s : State) (f : LioSt → LioSt) :
    (s.modLio f).pending = s.pending ∧ (s.modLio f).mode = s.mode ∧ (s.modLio f).start = s.start
      ∧ (s.modLio f).tide = s.tide ∧ (s.modLio f).ev = s.ev ∧ (s.modLio f).evb = s.evb
      ∧ (s.modLio f).evbRegs = s.evbRegs ∧ (s.modLio f).settle = s.settle ∧ (s.modLio f).resets = s.resets
      ∧ (s.modLio f).moor = s.moor ∧ (s.modLio f).a = s.a ∧ (s.modLio f).b = s.b ∧ (s.modLio f).ab = s.ab
      ∧ (s.modLio f).ba = s.ba ∧ (s.modLio f).intake = s.intake ∧ (s.modLio f).eva = s.eva
      ∧ (s.modLio f).ports = s.ports ∧ (s.modLio f).nodes = s.nodes ∧ (s.modLio f).enrol = s.enrol
      ∧ (s.modLio f).twin = s.twin ∧ (s.modLio f).svc = s.svc ∧ (s.modLio f).dict = s.dict ∧ (s.modLio f).man = s.man
      ∧ (s.modLio f).norA = s.norA ∧ (s.modLio f).norB = s.norB ∧ (s.modLio f).core = s.core
      ∧ (s.modLio f).mem = s.mem ∧ (s.modLio f).rows = s.rows
      ∧ (s.modLio f).tim = s.tim ∧ (s.modLio f).chk = s.chk ∧ (s.modLio f).fus = s.fus
      ∧ (s.modLio f).pws = s.pws ∧ (s.modLio f).rcd = s.rcd ∧ (s.modLio f).bells = s.bells
      ∧ (s.modLio f).scrub = s.scrub ∧ (s.modLio f).tx = s.tx ∧ (s.modLio f).draws = s.draws := by
  simp [State.modLio]

@[simp] theorem State.modLio_lio (s : State) (f : LioSt → LioSt) : (s.modLio f).lio = f s.lio := rfl

@[simp] theorem State.modPws_frame (s : State) (f : PwsSt → PwsSt) :
    (s.modPws f).pending = s.pending ∧ (s.modPws f).mode = s.mode ∧ (s.modPws f).start = s.start
      ∧ (s.modPws f).tide = s.tide ∧ (s.modPws f).ev = s.ev ∧ (s.modPws f).evb = s.evb
      ∧ (s.modPws f).evbRegs = s.evbRegs ∧ (s.modPws f).settle = s.settle ∧ (s.modPws f).resets = s.resets
      ∧ (s.modPws f).moor = s.moor ∧ (s.modPws f).a = s.a ∧ (s.modPws f).b = s.b ∧ (s.modPws f).ab = s.ab
      ∧ (s.modPws f).ba = s.ba ∧ (s.modPws f).intake = s.intake ∧ (s.modPws f).eva = s.eva
      ∧ (s.modPws f).ports = s.ports ∧ (s.modPws f).nodes = s.nodes ∧ (s.modPws f).enrol = s.enrol
      ∧ (s.modPws f).twin = s.twin ∧ (s.modPws f).lio = s.lio ∧ (s.modPws f).svc = s.svc ∧ (s.modPws f).dict = s.dict
      ∧ (s.modPws f).man = s.man ∧ (s.modPws f).norA = s.norA ∧ (s.modPws f).norB = s.norB
      ∧ (s.modPws f).core = s.core ∧ (s.modPws f).mem = s.mem ∧ (s.modPws f).rows = s.rows
      ∧ (s.modPws f).tim = s.tim ∧ (s.modPws f).chk = s.chk
      ∧ (s.modPws f).fus = s.fus ∧ (s.modPws f).rcd = s.rcd ∧ (s.modPws f).bells = s.bells
      ∧ (s.modPws f).scrub = s.scrub ∧ (s.modPws f).tx = s.tx ∧ (s.modPws f).draws = s.draws := by
  simp [State.modPws]

@[simp] theorem State.modPws_pws (s : State) (f : PwsSt → PwsSt) : (s.modPws f).pws = f s.pws := rfl

@[simp] theorem State.modTwin_frame (s : State) (f : TwinSt → TwinSt) :
    (s.modTwin f).pending = s.pending ∧ (s.modTwin f).mode = s.mode ∧ (s.modTwin f).start = s.start
      ∧ (s.modTwin f).tide = s.tide ∧ (s.modTwin f).ev = s.ev ∧ (s.modTwin f).evb = s.evb
      ∧ (s.modTwin f).evbRegs = s.evbRegs ∧ (s.modTwin f).settle = s.settle ∧ (s.modTwin f).resets = s.resets
      ∧ (s.modTwin f).moor = s.moor ∧ (s.modTwin f).a = s.a ∧ (s.modTwin f).b = s.b ∧ (s.modTwin f).ab = s.ab
      ∧ (s.modTwin f).ba = s.ba ∧ (s.modTwin f).intake = s.intake ∧ (s.modTwin f).eva = s.eva
      ∧ (s.modTwin f).ports = s.ports ∧ (s.modTwin f).nodes = s.nodes ∧ (s.modTwin f).enrol = s.enrol
      ∧ (s.modTwin f).lio = s.lio ∧ (s.modTwin f).svc = s.svc ∧ (s.modTwin f).dict = s.dict
      ∧ (s.modTwin f).man = s.man ∧ (s.modTwin f).norA = s.norA ∧ (s.modTwin f).norB = s.norB
      ∧ (s.modTwin f).core = s.core ∧ (s.modTwin f).mem = s.mem ∧ (s.modTwin f).rows = s.rows
      ∧ (s.modTwin f).tim = s.tim
      ∧ (s.modTwin f).chk = s.chk ∧ (s.modTwin f).fus = s.fus ∧ (s.modTwin f).pws = s.pws ∧ (s.modTwin f).rcd = s.rcd
      ∧ (s.modTwin f).bells = s.bells ∧ (s.modTwin f).scrub = s.scrub ∧ (s.modTwin f).tx = s.tx
      ∧ (s.modTwin f).draws = s.draws := by
  simp [State.modTwin]

@[simp] theorem State.modTwin_twin (s : State) (f : TwinSt → TwinSt) : (s.modTwin f).twin = f s.twin := rfl

@[simp] theorem State.modIntake_frame (s : State) (f : Intake → Intake) :
    (s.modIntake f).pending = s.pending ∧ (s.modIntake f).mode = s.mode ∧ (s.modIntake f).start = s.start
      ∧ (s.modIntake f).tide = s.tide ∧ (s.modIntake f).ev = s.ev ∧ (s.modIntake f).evb = s.evb
      ∧ (s.modIntake f).evbRegs = s.evbRegs ∧ (s.modIntake f).settle = s.settle ∧ (s.modIntake f).resets = s.resets
      ∧ (s.modIntake f).moor = s.moor ∧ (s.modIntake f).a = s.a ∧ (s.modIntake f).b = s.b ∧ (s.modIntake f).ab = s.ab
      ∧ (s.modIntake f).ba = s.ba ∧ (s.modIntake f).eva = s.eva ∧ (s.modIntake f).ports = s.ports
      ∧ (s.modIntake f).nodes = s.nodes ∧ (s.modIntake f).enrol = s.enrol ∧ (s.modIntake f).twin = s.twin
      ∧ (s.modIntake f).lio = s.lio ∧ (s.modIntake f).svc = s.svc ∧ (s.modIntake f).dict = s.dict
      ∧ (s.modIntake f).man = s.man ∧ (s.modIntake f).norA = s.norA ∧ (s.modIntake f).norB = s.norB
      ∧ (s.modIntake f).core = s.core ∧ (s.modIntake f).mem = s.mem ∧ (s.modIntake f).rows = s.rows
      ∧ (s.modIntake f).tim = s.tim
      ∧ (s.modIntake f).chk = s.chk ∧ (s.modIntake f).fus = s.fus ∧ (s.modIntake f).pws = s.pws
      ∧ (s.modIntake f).rcd = s.rcd ∧ (s.modIntake f).bells = s.bells ∧ (s.modIntake f).scrub = s.scrub
      ∧ (s.modIntake f).tx = s.tx ∧ (s.modIntake f).draws = s.draws := by
  simp [State.modIntake]

@[simp] theorem State.modIntake_intake (s : State) (f : Intake → Intake) : (s.modIntake f).intake = f s.intake := rfl

@[simp] theorem State.modMan_frame (s : State) (f : ManSt → ManSt) :
    (s.modMan f).pending = s.pending ∧ (s.modMan f).mode = s.mode ∧ (s.modMan f).start = s.start
      ∧ (s.modMan f).tide = s.tide ∧ (s.modMan f).ev = s.ev ∧ (s.modMan f).evb = s.evb
      ∧ (s.modMan f).evbRegs = s.evbRegs ∧ (s.modMan f).settle = s.settle ∧ (s.modMan f).resets = s.resets
      ∧ (s.modMan f).moor = s.moor ∧ (s.modMan f).a = s.a ∧ (s.modMan f).b = s.b ∧ (s.modMan f).ab = s.ab
      ∧ (s.modMan f).ba = s.ba ∧ (s.modMan f).intake = s.intake ∧ (s.modMan f).eva = s.eva
      ∧ (s.modMan f).ports = s.ports ∧ (s.modMan f).nodes = s.nodes ∧ (s.modMan f).enrol = s.enrol
      ∧ (s.modMan f).twin = s.twin ∧ (s.modMan f).lio = s.lio ∧ (s.modMan f).svc = s.svc ∧ (s.modMan f).dict = s.dict
      ∧ (s.modMan f).norA = s.norA ∧ (s.modMan f).norB = s.norB ∧ (s.modMan f).core = s.core
      ∧ (s.modMan f).mem = s.mem ∧ (s.modMan f).rows = s.rows
      ∧ (s.modMan f).tim = s.tim ∧ (s.modMan f).chk = s.chk ∧ (s.modMan f).fus = s.fus
      ∧ (s.modMan f).pws = s.pws ∧ (s.modMan f).rcd = s.rcd ∧ (s.modMan f).bells = s.bells
      ∧ (s.modMan f).scrub = s.scrub ∧ (s.modMan f).tx = s.tx ∧ (s.modMan f).draws = s.draws := by
  simp [State.modMan]

@[simp] theorem State.modMan_man (s : State) (f : ManSt → ManSt) : (s.modMan f).man = f s.man := rfl

@[simp] theorem State.modEva_frame (s : State) (f : EvaBlk → EvaBlk) :
    (s.modEva f).pending = s.pending ∧ (s.modEva f).mode = s.mode ∧ (s.modEva f).start = s.start
      ∧ (s.modEva f).tide = s.tide ∧ (s.modEva f).ev = s.ev ∧ (s.modEva f).evb = s.evb
      ∧ (s.modEva f).evbRegs = s.evbRegs ∧ (s.modEva f).settle = s.settle ∧ (s.modEva f).resets = s.resets
      ∧ (s.modEva f).moor = s.moor ∧ (s.modEva f).a = s.a ∧ (s.modEva f).b = s.b ∧ (s.modEva f).ab = s.ab
      ∧ (s.modEva f).ba = s.ba ∧ (s.modEva f).intake = s.intake ∧ (s.modEva f).ports = s.ports
      ∧ (s.modEva f).nodes = s.nodes ∧ (s.modEva f).enrol = s.enrol ∧ (s.modEva f).twin = s.twin
      ∧ (s.modEva f).lio = s.lio ∧ (s.modEva f).svc = s.svc ∧ (s.modEva f).dict = s.dict ∧ (s.modEva f).man = s.man
      ∧ (s.modEva f).norA = s.norA ∧ (s.modEva f).norB = s.norB ∧ (s.modEva f).core = s.core
      ∧ (s.modEva f).mem = s.mem ∧ (s.modEva f).rows = s.rows
      ∧ (s.modEva f).tim = s.tim ∧ (s.modEva f).chk = s.chk ∧ (s.modEva f).fus = s.fus
      ∧ (s.modEva f).pws = s.pws ∧ (s.modEva f).rcd = s.rcd ∧ (s.modEva f).bells = s.bells
      ∧ (s.modEva f).scrub = s.scrub ∧ (s.modEva f).tx = s.tx ∧ (s.modEva f).draws = s.draws := by
  simp [State.modEva]

@[simp] theorem State.modEva_eva (s : State) (f : EvaBlk → EvaBlk) : (s.modEva f).eva = f s.eva := rfl

@[simp] theorem State.modSvc_frame (s : State) (f : SvcSt → SvcSt) :
    (s.modSvc f).pending = s.pending ∧ (s.modSvc f).mode = s.mode ∧ (s.modSvc f).start = s.start
      ∧ (s.modSvc f).tide = s.tide ∧ (s.modSvc f).ev = s.ev ∧ (s.modSvc f).evb = s.evb
      ∧ (s.modSvc f).evbRegs = s.evbRegs ∧ (s.modSvc f).settle = s.settle ∧ (s.modSvc f).resets = s.resets
      ∧ (s.modSvc f).moor = s.moor ∧ (s.modSvc f).a = s.a ∧ (s.modSvc f).b = s.b ∧ (s.modSvc f).ab = s.ab
      ∧ (s.modSvc f).ba = s.ba ∧ (s.modSvc f).intake = s.intake ∧ (s.modSvc f).eva = s.eva
      ∧ (s.modSvc f).ports = s.ports ∧ (s.modSvc f).nodes = s.nodes ∧ (s.modSvc f).enrol = s.enrol
      ∧ (s.modSvc f).twin = s.twin ∧ (s.modSvc f).lio = s.lio ∧ (s.modSvc f).dict = s.dict ∧ (s.modSvc f).man = s.man
      ∧ (s.modSvc f).norA = s.norA ∧ (s.modSvc f).norB = s.norB ∧ (s.modSvc f).core = s.core
      ∧ (s.modSvc f).mem = s.mem ∧ (s.modSvc f).rows = s.rows
      ∧ (s.modSvc f).tim = s.tim ∧ (s.modSvc f).chk = s.chk ∧ (s.modSvc f).fus = s.fus
      ∧ (s.modSvc f).pws = s.pws ∧ (s.modSvc f).rcd = s.rcd ∧ (s.modSvc f).bells = s.bells
      ∧ (s.modSvc f).scrub = s.scrub ∧ (s.modSvc f).tx = s.tx ∧ (s.modSvc f).draws = s.draws := by
  simp [State.modSvc]

@[simp] theorem State.modSvc_svc (s : State) (f : SvcSt → SvcSt) : (s.modSvc f).svc = f s.svc := rfl

@[simp] theorem State.modDict_frame (s : State) (f : DictSt → DictSt) :
    (s.modDict f).pending = s.pending ∧ (s.modDict f).mode = s.mode ∧ (s.modDict f).start = s.start
      ∧ (s.modDict f).tide = s.tide ∧ (s.modDict f).ev = s.ev ∧ (s.modDict f).evb = s.evb
      ∧ (s.modDict f).evbRegs = s.evbRegs ∧ (s.modDict f).settle = s.settle ∧ (s.modDict f).resets = s.resets
      ∧ (s.modDict f).moor = s.moor ∧ (s.modDict f).a = s.a ∧ (s.modDict f).b = s.b ∧ (s.modDict f).ab = s.ab
      ∧ (s.modDict f).ba = s.ba ∧ (s.modDict f).intake = s.intake ∧ (s.modDict f).eva = s.eva
      ∧ (s.modDict f).ports = s.ports ∧ (s.modDict f).nodes = s.nodes ∧ (s.modDict f).enrol = s.enrol
      ∧ (s.modDict f).twin = s.twin ∧ (s.modDict f).lio = s.lio ∧ (s.modDict f).svc = s.svc
      ∧ (s.modDict f).man = s.man ∧ (s.modDict f).norA = s.norA ∧ (s.modDict f).norB = s.norB
      ∧ (s.modDict f).core = s.core ∧ (s.modDict f).mem = s.mem ∧ (s.modDict f).rows = s.rows
      ∧ (s.modDict f).tim = s.tim
      ∧ (s.modDict f).chk = s.chk ∧ (s.modDict f).fus = s.fus ∧ (s.modDict f).pws = s.pws ∧ (s.modDict f).rcd = s.rcd
      ∧ (s.modDict f).bells = s.bells ∧ (s.modDict f).scrub = s.scrub ∧ (s.modDict f).tx = s.tx
      ∧ (s.modDict f).draws = s.draws := by
  simp [State.modDict]

@[simp] theorem State.modDict_dict (s : State) (f : DictSt → DictSt) : (s.modDict f).dict = f s.dict := rfl

@[simp] theorem State.modSes_frame (s : State) (k : Nat) (f : Session → Session) :
    (s.modSes k f).pending = s.pending ∧ (s.modSes k f).mode = s.mode ∧ (s.modSes k f).start = s.start
      ∧ (s.modSes k f).tide = s.tide ∧ (s.modSes k f).ev = s.ev ∧ (s.modSes k f).evb = s.evb
      ∧ (s.modSes k f).evbRegs = s.evbRegs ∧ (s.modSes k f).settle = s.settle ∧ (s.modSes k f).resets = s.resets
      ∧ (s.modSes k f).moor = s.moor ∧ (s.modSes k f).a = s.a ∧ (s.modSes k f).b = s.b ∧ (s.modSes k f).ab = s.ab
      ∧ (s.modSes k f).ba = s.ba ∧ (s.modSes k f).intake = s.intake ∧ (s.modSes k f).eva = s.eva
      ∧ (s.modSes k f).ports = s.ports ∧ (s.modSes k f).nodes = s.nodes ∧ (s.modSes k f).enrol = s.enrol
      ∧ (s.modSes k f).twin = s.twin ∧ (s.modSes k f).lio = s.lio ∧ (s.modSes k f).dict = s.dict
      ∧ (s.modSes k f).man = s.man ∧ (s.modSes k f).norA = s.norA ∧ (s.modSes k f).norB = s.norB
      ∧ (s.modSes k f).core = s.core ∧ (s.modSes k f).mem = s.mem ∧ (s.modSes k f).rows = s.rows
      ∧ (s.modSes k f).tim = s.tim
      ∧ (s.modSes k f).chk = s.chk ∧ (s.modSes k f).fus = s.fus ∧ (s.modSes k f).pws = s.pws
      ∧ (s.modSes k f).rcd = s.rcd ∧ (s.modSes k f).bells = s.bells ∧ (s.modSes k f).scrub = s.scrub
      ∧ (s.modSes k f).tx = s.tx ∧ (s.modSes k f).draws = s.draws := by
  simp [State.modSes]

@[simp] theorem State.modSes_svc (s : State) (k : Nat) (f : Session → Session) : (s.modSes k f).svc = { s.svc with ses := listMod s.svc.ses k fun o => o.map f } := rfl

@[simp] theorem State.setSlot_frame (s : State) (k rid : Nat) (sl : Slot) :
    (s.setSlot k rid sl).pending = s.pending ∧ (s.setSlot k rid sl).mode = s.mode
      ∧ (s.setSlot k rid sl).start = s.start ∧ (s.setSlot k rid sl).tide = s.tide ∧ (s.setSlot k rid sl).ev = s.ev
      ∧ (s.setSlot k rid sl).evb = s.evb ∧ (s.setSlot k rid sl).evbRegs = s.evbRegs
      ∧ (s.setSlot k rid sl).settle = s.settle ∧ (s.setSlot k rid sl).resets = s.resets
      ∧ (s.setSlot k rid sl).moor = s.moor ∧ (s.setSlot k rid sl).a = s.a ∧ (s.setSlot k rid sl).b = s.b
      ∧ (s.setSlot k rid sl).ab = s.ab ∧ (s.setSlot k rid sl).ba = s.ba ∧ (s.setSlot k rid sl).intake = s.intake
      ∧ (s.setSlot k rid sl).eva = s.eva ∧ (s.setSlot k rid sl).ports = s.ports ∧ (s.setSlot k rid sl).nodes = s.nodes
      ∧ (s.setSlot k rid sl).enrol = s.enrol ∧ (s.setSlot k rid sl).twin = s.twin ∧ (s.setSlot k rid sl).lio = s.lio
      ∧ (s.setSlot k rid sl).dict = s.dict ∧ (s.setSlot k rid sl).man = s.man ∧ (s.setSlot k rid sl).norA = s.norA
      ∧ (s.setSlot k rid sl).norB = s.norB ∧ (s.setSlot k rid sl).core = s.core ∧ (s.setSlot k rid sl).mem = s.mem ∧ (s.setSlot k rid sl).rows = s.rows
      ∧ (s.setSlot k rid sl).tim = s.tim ∧ (s.setSlot k rid sl).chk = s.chk ∧ (s.setSlot k rid sl).fus = s.fus
      ∧ (s.setSlot k rid sl).pws = s.pws ∧ (s.setSlot k rid sl).rcd = s.rcd ∧ (s.setSlot k rid sl).bells = s.bells
      ∧ (s.setSlot k rid sl).scrub = s.scrub ∧ (s.setSlot k rid sl).tx = s.tx ∧ (s.setSlot k rid sl).draws = s.draws := by
  simp [State.setSlot]

@[simp] theorem State.modSub_frame (s : State) (k n : Nat) (f : Sub → Sub) :
    (s.modSub k n f).pending = s.pending ∧ (s.modSub k n f).mode = s.mode ∧ (s.modSub k n f).start = s.start
      ∧ (s.modSub k n f).tide = s.tide ∧ (s.modSub k n f).ev = s.ev ∧ (s.modSub k n f).evb = s.evb
      ∧ (s.modSub k n f).evbRegs = s.evbRegs ∧ (s.modSub k n f).settle = s.settle ∧ (s.modSub k n f).resets = s.resets
      ∧ (s.modSub k n f).moor = s.moor ∧ (s.modSub k n f).a = s.a ∧ (s.modSub k n f).b = s.b
      ∧ (s.modSub k n f).ab = s.ab ∧ (s.modSub k n f).ba = s.ba ∧ (s.modSub k n f).intake = s.intake
      ∧ (s.modSub k n f).eva = s.eva ∧ (s.modSub k n f).ports = s.ports ∧ (s.modSub k n f).nodes = s.nodes
      ∧ (s.modSub k n f).enrol = s.enrol ∧ (s.modSub k n f).twin = s.twin ∧ (s.modSub k n f).lio = s.lio
      ∧ (s.modSub k n f).dict = s.dict ∧ (s.modSub k n f).man = s.man ∧ (s.modSub k n f).norA = s.norA
      ∧ (s.modSub k n f).norB = s.norB ∧ (s.modSub k n f).core = s.core ∧ (s.modSub k n f).mem = s.mem ∧ (s.modSub k n f).rows = s.rows
      ∧ (s.modSub k n f).tim = s.tim ∧ (s.modSub k n f).chk = s.chk ∧ (s.modSub k n f).fus = s.fus
      ∧ (s.modSub k n f).pws = s.pws ∧ (s.modSub k n f).rcd = s.rcd ∧ (s.modSub k n f).bells = s.bells
      ∧ (s.modSub k n f).scrub = s.scrub ∧ (s.modSub k n f).tx = s.tx ∧ (s.modSub k n f).draws = s.draws := by
  simp [State.modSub]

@[simp] theorem State.busReturns_frame (s : State) (v : Word) :
    (s.busReturns v).pending = s.pending ∧ (s.busReturns v).mode = s.mode ∧ (s.busReturns v).start = s.start
      ∧ (s.busReturns v).tide = s.tide ∧ (s.busReturns v).ev = s.ev ∧ (s.busReturns v).evb = s.evb
      ∧ (s.busReturns v).evbRegs = s.evbRegs ∧ (s.busReturns v).settle = s.settle ∧ (s.busReturns v).resets = s.resets
      ∧ (s.busReturns v).moor = s.moor ∧ (s.busReturns v).a = s.a ∧ (s.busReturns v).b = s.b
      ∧ (s.busReturns v).ab = s.ab ∧ (s.busReturns v).ba = s.ba ∧ (s.busReturns v).intake = s.intake
      ∧ (s.busReturns v).eva = s.eva ∧ (s.busReturns v).ports = s.ports ∧ (s.busReturns v).nodes = s.nodes
      ∧ (s.busReturns v).enrol = s.enrol ∧ (s.busReturns v).twin = s.twin ∧ (s.busReturns v).lio = s.lio
      ∧ (s.busReturns v).svc = s.svc ∧ (s.busReturns v).dict = s.dict ∧ (s.busReturns v).man = s.man
      ∧ (s.busReturns v).norA = s.norA ∧ (s.busReturns v).norB = s.norB ∧ (s.busReturns v).mem = s.mem ∧ (s.busReturns v).rows = s.rows
      ∧ (s.busReturns v).tim = s.tim ∧ (s.busReturns v).chk = s.chk ∧ (s.busReturns v).fus = s.fus
      ∧ (s.busReturns v).pws = s.pws ∧ (s.busReturns v).rcd = s.rcd ∧ (s.busReturns v).bells = s.bells
      ∧ (s.busReturns v).scrub = s.scrub ∧ (s.busReturns v).tx = s.tx ∧ (s.busReturns v).draws = s.draws := by
  simp [State.busReturns]

@[simp] theorem State.busReturns_core (s : State) (v : Word) : (s.busReturns v).core = { s.core with busData := v, busErr := false } := rfl

@[simp] theorem State.setDie_die (s : State) (d : Die) (x : DieState) : (s.setDie d x).die d = x := by cases d <;> rfl

@[simp] theorem State.setDie_other (s : State) (d : Die) (x : DieState) : (s.setDie d x).die (Die.other d) = s.die (Die.other d) := by
  cases d <;> rfl

@[simp] theorem State.setDie_a (s : State) (d : Die) (x : DieState) : (s.setDie d x).a = if d = .A then x else s.a := by
  cases d <;> rfl

@[simp] theorem State.setDie_b (s : State) (d : Die) (x : DieState) : (s.setDie d x).b = if d = .B then x else s.b := by
  cases d <;> rfl

@[simp] theorem State.setGwFor_gwFor (s : State) (d : Die) (q : List GwFrame) : (s.setGwFor d q).gwFor d = q := by
  cases d <;> rfl

/-- Event registers after a change: the block's own, where it has registers. -/
theorem State.modEv_evOf_self (s : State) (b : Nat) (f : EvBlock → EvBlock) (h : b < s.ev.length) :
    (s.modEv b f).evOf b = f (s.evOf b) := by
  unfold State.modEv State.evOf
  split
  · rfl
  · exact listMod_getD_self s.ev b f _ h

/-- Event registers of another block. -/
theorem State.modEv_evOf_ne (s : State) (b c : Nat) (f : EvBlock → EvBlock) (h : c ≠ b) :
    (s.modEv b f).evOf c = s.evOf c := by
  unfold State.modEv State.evOf
  split
  · split <;> simp_all
  · split
    · rfl
    · exact listMod_getD_ne s.ev b c f _ h

/-- Two states are equal when every field is. -/
theorem State.ext_fields (s t : State)
    (h_pending : t.pending = s.pending) (h_mode : t.mode = s.mode) (h_start : t.start = s.start)
    (h_tide : t.tide = s.tide) (h_ev : t.ev = s.ev) (h_evb : t.evb = s.evb) (h_evbRegs : t.evbRegs = s.evbRegs)
    (h_settle : t.settle = s.settle) (h_resets : t.resets = s.resets) (h_moor : t.moor = s.moor) (h_a : t.a = s.a)
    (h_b : t.b = s.b) (h_ab : t.ab = s.ab) (h_ba : t.ba = s.ba) (h_intake : t.intake = s.intake)
    (h_eva : t.eva = s.eva) (h_ports : t.ports = s.ports) (h_nodes : t.nodes = s.nodes) (h_enrol : t.enrol = s.enrol)
    (h_twin : t.twin = s.twin) (h_lio : t.lio = s.lio) (h_svc : t.svc = s.svc) (h_dict : t.dict = s.dict)
    (h_man : t.man = s.man) (h_norA : t.norA = s.norA) (h_norB : t.norB = s.norB) (h_core : t.core = s.core)
    (h_mem : t.mem = s.mem) (h_rows : t.rows = s.rows) (h_tim : t.tim = s.tim) (h_chk : t.chk = s.chk) (h_fus : t.fus = s.fus)
    (h_pws : t.pws = s.pws) (h_rcd : t.rcd = s.rcd) (h_bells : t.bells = s.bells) (h_scrub : t.scrub = s.scrub)
    (h_tx : t.tx = s.tx) (h_draws : t.draws = s.draws) : t = s := by
  cases s; cases t; simp_all

end Sys2Proof.Machine
end

