-- ==== Sys2Proof/Laws/Answers.lean ====
section
/-!
SUPPORT. What answering a request can change, said once, and that a completed request whose session lasts holds its status.
-/

namespace Sys2Proof.Machine

theorem Answers.refl (s : State) : Answers s s := ⟨rfl, rfl, List.prefix_refl _⟩

theorem Answers.trans {s t u : State} (h : Answers s t) (g : Answers t u) : Answers s u where
  frame := by have := g.frame; rw [h.frame] at this; exact this
  sessions := g.sessions.trans h.sessions
  sent := h.sent.trans g.sent

/-- A list of changes, each within what an answer may change. -/
theorem Answers.foldl {α : Type} (f : State → α → State) (h : ∀ s a, Answers s (f s a)) (l : List α) (s : State) :
    Answers s (l.foldl f s) := by
  induction l generalizing s with
  | nil => exact .refl s
  | cons a l ih => exact (h s a).trans (ih _)

/-! ## Records, messages, sessions -/

theorem recAdd_answers (s : State) (g : List Octets) : Answers s (recAdd s g) := by
  unfold recAdd
  split
  · exact .refl s
  · exact ⟨rfl, rfl, List.prefix_refl _⟩

theorem recMake_answers (s : State) (kind : Nat) (bd : Bool) (pay cont : Octets) : Answers s (recMake s kind bd pay cont) :=
  recAdd_answers s _

theorem recHelm_answers (s : State) (c : Nat) (o n : Option (Fin 8)) (ol nl np : Nat) : Answers s (recHelm s c o n ol nl np) :=
  recMake_answers s _ _ _ _

theorem sendAll_answers (s : State) (xs : List Tx) : Answers s (s.sendAll xs) :=
  ⟨rfl, rfl, List.prefix_append _ _⟩

theorem send_answers (s : State) (x : Tx) : Answers s (s.send x) := sendAll_answers s [x]

/-- What an answer may change of the service. -/
def AnswersSvc (x y : SvcSt) : Prop :=
  y = { x with ses := y.ses, helm := y.helm, inbox := y.inbox, posted := y.posted, outQ := y.outQ, frags := y.frags,
               ringIn := y.ringIn }

/-- A change of the sessions, the Helm, and the messages that wait, come or leave. -/
theorem svc_answers (s : State) (v : SvcSt) (by' : Option (Fin 8 × BitVec 32)) (h : AnswersSvc s.svc v)
    (hl : v.ses.length = s.svc.ses.length) : Answers s { s with svc := v, dict := { s.dict with commitBy := by' } } :=
  ⟨by unfold AnswersSvc at h; rw [← h], hl, List.prefix_refl _⟩

theorem modSes_answers (s : State) (k : Nat) (f : Session → Session) : Answers s (s.modSes k f) :=
  svc_answers s _ s.dict.commitBy rfl (by simp)

theorem setSlot_answers (s : State) (k r : Nat) (sl : Slot) : Answers s (s.setSlot k r sl) := modSes_answers s k _

theorem noSes_answers (s : State) (k : Nat) : Answers s (s.noSes k) := svc_answers s _ _ rfl (by simp)

theorem svcOut_answers (s : State) (c : Client) (msg : Octets) (note : Option (Fin 8)) : Answers s (svcOut s c msg note) := by
  unfold svcOut
  split
  · exact svc_answers s _ s.dict.commitBy rfl rfl
  · exact svc_answers s _ s.dict.commitBy rfl rfl
  · exact svc_answers s _ s.dict.commitBy rfl rfl
  · split
    · exact .refl s
    · exact send_answers s _

theorem setHelm_answers (s : State) (h : HelmSt) : Answers s { s with svc := { s.svc with helm := h } } :=
  svc_answers s _ s.dict.commitBy rfl rfl

theorem helmNotify_answers (s : State) (ks : List Nat) : Answers s (helmNotify s ks) :=
  Answers.foldl _ (fun s k => modSes_answers s k _) _ s

theorem helmGive_answers (s : State) (k : Fin 8) (c : Nat) : Answers s (helmGive s k c) :=
  ((setHelm_answers s _).trans (recHelm_answers _ _ _ _ _ _ _)).trans (helmNotify_answers _ _)

theorem helmSesEnd_answers (s : State) (k : Fin 8) : Answers s (helmSesEnd s k) := by
  unfold helmSesEnd
  dsimp only
  split
  · exact (setHelm_answers s _).trans (recHelm_answers _ _ _ _ _ _ _)
  · split
    · exact setHelm_answers s _
    · exact .refl s

theorem sesPut_answers (s : State) (k : Fin 8) (typ : Nat) (body : Octets) : Answers s (sesPut s k typ body) := by
  unfold sesPut
  split
  · exact .refl s
  · split
    · exact .refl s
    · exact (modSes_answers s k.val _).trans (svcOut_answers _ _ _ _)

theorem slotDone_answers (s : State) (k : Fin 8) (r status : Nat) (tx ift : Tide) (data : Octets) :
    Answers s (slotDone s k r status tx ift data) := by
  unfold slotDone
  split
  · exact .refl s
  · exact (setSlot_answers s _ _ _).trans (sesPut_answers _ _ _ _)

theorem seizeDone_answers (s : State) (z : Fin 8) : Answers s (seizeDone s z) :=
  (helmGive_answers s z 5).trans (slotDone_answers _ _ _ _ _ _ _)

theorem sesGone_answers (s : State) (k : Fin 8) : Answers s (sesGone s k) := by
  unfold sesGone
  dsimp only
  split
  · split
    · exact (seizeDone_answers s _).trans (noSes_answers _ _)
    · exact (helmSesEnd_answers s k).trans (noSes_answers _ _)
  · exact (helmSesEnd_answers s k).trans (noSes_answers _ _)

theorem endSession_answers (s : State) (k : Fin 8) : Answers s (endSession s k) := by
  unfold endSession
  split
  · exact .refl s
  · dsimp only
    split
    · split
      · exact (sesGone_answers s k).trans (sesGone_answers _ _)
      · exact sesGone_answers s k
    · exact sesGone_answers s k

theorem sesSend_answers (s : State) (k : Fin 8) (typ : Nat) (body : Octets) : Answers s (sesSend s k typ body) := by
  unfold sesSend
  dsimp only
  split
  · exact (sesPut_answers s _ _ _).trans (endSession_answers _ _)
  · exact sesPut_answers s _ _ _

theorem complete_answers (s : State) (k : Fin 8) (r status : Nat) (tx ift : Tide) (data : Octets) :
    Answers s (complete s k r status tx ift data) := by
  unfold complete
  dsimp only
  split
  · exact (slotDone_answers s _ _ _ _ _ _).trans (endSession_answers _ _)
  · exact slotDone_answers s _ _ _ _ _ _

theorem seizeGrant_answers (s : State) (z : Fin 8) : Answers s (seizeGrant s z) := by
  unfold seizeGrant
  dsimp only
  split
  · exact (seizeDone_answers s z).trans (endSession_answers _ _)
  · exact seizeDone_answers s z

theorem endSessions_answers (s : State) (p : Session → Bool) : Answers s (endSessions s p) := by
  refine Answers.foldl _ (fun s k => ?_) _ s
  split
  · split
    · exact endSession_answers s k
    · exact .refl s
  · exact .refl s

theorem helmFree_answers (s : State) (c : Nat) : Answers s (helmFree s c) := by
  unfold helmFree
  dsimp only
  split
  · exact .refl s
  · split
    · exact (recHelm_answers s _ _ _ _ _ _).trans (seizeGrant_answers _ _)
    · exact (setHelm_answers s _).trans ((recHelm_answers _ _ _ _ _ _ _).trans (helmNotify_answers _ _))

end Sys2Proof.Machine
end

