-- ==== Sys2Proof/Laws/Cells.lean ====
section
/-!
SUPPORT. The laws of sparse tables: a read after a write, and that every operation keeps the canonical form, so that equal
tables are equal data.
-/

namespace Sys2Proof.Machine

variable {α : Type} [DecidableEq α]

/-- A table whose keys all lie at or above hi lists nothing below hi. -/
theorem cellGet_below (d : α) (l : List (Nat × α)) (lo k : Nat) (h : cellWfFrom d lo l = true) (hk : k < lo) :
    cellGet d l k = d := by
  induction l generalizing lo with
  | nil => rfl
  | cons c t ih =>
    obtain ⟨j, v⟩ := c
    simp only [cellWfFrom, Bool.and_eq_true, decide_eq_true_eq] at h
    have hj : j ≠ k := by omega
    simp [cellGet, hj, ih (j + 1) h.2 (by omega)]

/-- A canonical table is canonical from any lower bound. -/
theorem cellWfFrom_mono (d : α) (l : List (Nat × α)) (lo lo' : Nat) (h : cellWfFrom d lo l = true) (hl : lo' ≤ lo) :
    cellWfFrom d lo' l = true := by
  cases l with
  | nil => rfl
  | cons c t =>
    obtain ⟨j, v⟩ := c
    simp only [cellWfFrom, Bool.and_eq_true, decide_eq_true_eq] at h ⊢
    exact ⟨⟨by omega, h.1.2⟩, h.2⟩

/-- A write keeps the form. -/
theorem cellSet_wfFrom (d : α) (l : List (Nat × α)) (lo k : Nat) (v : α) (h : cellWfFrom d lo l = true) (hk : lo ≤ k) :
    cellWfFrom d lo (cellSet d l k v) = true := by
  induction l generalizing lo with
  | nil => by_cases hv : v = d <;> simp [cellSet, hv, cellWfFrom, hk]
  | cons c t ih =>
    obtain ⟨j, w⟩ := c
    have h' := h
    simp only [cellWfFrom, Bool.and_eq_true, decide_eq_true_eq] at h'
    simp only [cellSet]
    by_cases h1 : k < j
    · by_cases hv : v = d
      · simp [h1, hv, h]
      · simp [h1, hv, cellWfFrom, hk, h'.1.2, cellWfFrom_mono d t _ _ h'.2 (Nat.le_refl _)]
    · by_cases h2 : k = j
      · subst h2
        by_cases hv : v = d
        · simp [hv, cellWfFrom_mono d t _ lo h'.2 (by omega)]
        · simp [hv, cellWfFrom, hk, h'.2]
      · simp [h1, h2, cellWfFrom, h'.1.1, h'.1.2, ih (j + 1) h'.2 (by omega)]

/-- A write keeps the canonical form. -/
theorem cellSet_wf (d : α) (l : List (Nat × α)) (k : Nat) (v : α) (h : cellWf d l = true) :
    cellWf d (cellSet d l k v) = true := cellSet_wfFrom d l 0 k v h (Nat.zero_le k)

/-- A read after a write of a canonical table. -/
theorem cellGet_cellSet_from (d : α) (l : List (Nat × α)) (lo k m : Nat) (v : α) (h : cellWfFrom d lo l = true) :
    cellGet d (cellSet d l k v) m = if m = k then v else cellGet d l m := by
  induction l generalizing lo with
  | nil =>
    by_cases hv : v = d
    · by_cases hm : m = k <;> simp [cellSet, hv, cellGet, hm]
    · by_cases hm : m = k
      · simp [cellSet, hv, cellGet, hm]
      · have : k ≠ m := fun e => hm e.symm
        simp [cellSet, hv, cellGet, hm, this]
  | cons c t ih =>
    obtain ⟨j, w⟩ := c
    have h' := h
    simp only [cellWfFrom, Bool.and_eq_true, decide_eq_true_eq] at h'
    by_cases h1 : k < j
    · have hb : cellGet d ((j, w) :: t) k = d := by
        have hj : j ≠ k := by omega
        simp [cellGet, hj, cellGet_below d t (j + 1) k h'.2 (by omega)]
      by_cases hv : v = d
      · by_cases hm : m = k
        · simp [cellSet, h1, hv, hm, hb]
        · simp [cellSet, h1, hv, hm]
      · by_cases hm : m = k
        · simp [cellSet, h1, hv, cellGet, hm]
        · have : k ≠ m := fun e => hm e.symm
          simp [cellSet, h1, hv, cellGet, hm, this]
    · by_cases h2 : k = j
      · subst h2
        by_cases hv : v = d
        · by_cases hm : m = k
          · simp [cellSet, hv, hm, cellGet_below d t (k + 1) k h'.2 (by omega)]
          · have : k ≠ m := fun e => hm e.symm
            simp [cellSet, hv, cellGet, hm, this]
        · by_cases hm : m = k
          · simp [cellSet, hv, cellGet, hm]
          · have : k ≠ m := fun e => hm e.symm
            simp [cellSet, hv, cellGet, hm, this]
      · simp only [cellSet, h1, h2, if_false, cellGet]
        by_cases hj : j = m
        · have : m ≠ k := by omega
          simp [hj, this]
        · simp [hj, ih (j + 1) h'.2]

/-- A read after a write. -/
theorem cellGet_cellSet (d : α) (l : List (Nat × α)) (k m : Nat) (v : α) (h : cellWf d l = true) :
    cellGet d (cellSet d l k v) m = if m = k then v else cellGet d l m := cellGet_cellSet_from d l 0 k m v h

/-- Writing consecutive keys keeps the canonical form. -/
theorem cellSetAll_wf (d : α) (l : List (Nat × α)) (k : Nat) (vs : List α) (h : cellWf d l = true) :
    cellWf d (cellSetAll d l k vs) = true := by
  induction vs generalizing l k with
  | nil => exact h
  | cons v vs ih => exact ih _ _ (cellSet_wf d l k v h)

/-- A read after writing consecutive keys. -/
theorem cellGet_cellSetAll (d : α) (l : List (Nat × α)) (k m : Nat) (vs : List α) (h : cellWf d l = true) :
    cellGet d (cellSetAll d l k vs) m = if k ≤ m ∧ m < k + vs.length then vs.getD (m - k) d else cellGet d l m := by
  induction vs generalizing l k with
  | nil =>
    simp [cellSetAll]
  | cons v vs ih =>
    simp only [cellSetAll, ih _ _ (cellSet_wf d l k v h), cellGet_cellSet d l k m v h, List.length_cons]
    by_cases h1 : m = k
    · subst h1
      have : ¬ (m + 1 ≤ m ∧ m < m + 1 + vs.length) := by omega
      have h3 : m ≤ m ∧ m < m + (vs.length + 1) := by omega
      simp
    · by_cases h2 : k + 1 ≤ m ∧ m < k + 1 + vs.length
      · have h3 : k ≤ m ∧ m < k + (vs.length + 1) := by omega
        obtain ⟨i, hi⟩ : ∃ i, m - k = i + 1 := ⟨m - k - 1, by omega⟩
        have hi2 : m - (k + 1) = i := by omega
        rw [if_pos h2, if_pos h3, hi, hi2, List.getD_cons_succ]
      · have h3 : ¬ (k ≤ m ∧ m < k + (vs.length + 1)) := by omega
        rw [if_neg h2, if_neg h3, if_neg h1]

/-- Keeping some keys keeps the form. -/
theorem cellWfFrom_filter (d : α) (l : List (Nat × α)) (lo : Nat) (p : Nat × α → Bool) (h : cellWfFrom d lo l = true) :
    cellWfFrom d lo (l.filter p) = true := by
  induction l generalizing lo with
  | nil => rfl
  | cons c t ih =>
    obtain ⟨j, v⟩ := c
    simp only [cellWfFrom, Bool.and_eq_true, decide_eq_true_eq] at h
    by_cases hp : p (j, v) = true
    · simp [hp, cellWfFrom, h.1.1, h.1.2, ih (j + 1) h.2]
    · simp only [List.filter_cons, hp]
      exact cellWfFrom_mono d _ (j + 1) lo (ih (j + 1) h.2) (by omega)

/-- Removing keys keeps the canonical form. -/
theorem cellErase_wf (d : α) (l : List (Nat × α)) (lo hi : Nat) (h : cellWf d l = true) :
    cellWf d (cellErase l lo hi) = true := cellWfFrom_filter d l 0 _ h

/-- A read after removing keys. -/
theorem cellGet_cellErase {α : Type} (d : α) (l : List (Nat × α)) (lo hi k : Nat) :
    cellGet d (cellErase l lo hi) k = if lo ≤ k ∧ k < hi then d else cellGet d l k := by
  induction l with
  | nil => simp [cellErase, cellGet]
  | cons c t ih =>
    obtain ⟨j, v⟩ := c
    unfold cellErase at ih ⊢
    simp only [List.filter_cons, Bool.or_eq_true, decide_eq_true_eq]
    by_cases hj : j < lo ∨ hi ≤ j
    · simp only [hj, if_true, cellGet]
      by_cases hk : j = k
      · subst hk
        have : ¬ (lo ≤ j ∧ j < hi) := by omega
        simp [this]
      · simp [hk, ih]
    · simp only [hj, if_false, cellGet]
      by_cases hk : j = k
      · subst hk
        have : lo ≤ j ∧ j < hi := by omega
        simp [ih, this]
      · simp [hk, ih]

/-- Two canonical tables with the same readings are the same table. -/
theorem cell_ext (d : α) (l m : List (Nat × α)) (lo : Nat) (hl : cellWfFrom d lo l = true) (hm : cellWfFrom d lo m = true)
    (h : ∀ k, cellGet d l k = cellGet d m k) : l = m := by
  induction l generalizing m lo with
  | nil =>
    cases m with
    | nil => rfl
    | cons c t =>
      obtain ⟨j, v⟩ := c
      simp only [cellWfFrom, Bool.and_eq_true, decide_eq_true_eq] at hm
      have := h j
      simp only [cellGet, if_true] at this
      exact absurd this.symm hm.1.2
  | cons c t ih =>
    obtain ⟨j, v⟩ := c
    have hl' := hl
    simp only [cellWfFrom, Bool.and_eq_true, decide_eq_true_eq] at hl'
    cases m with
    | nil =>
      have := h j
      simp only [cellGet, if_true] at this
      exact absurd this hl'.1.2
    | cons e u =>
      obtain ⟨i, w⟩ := e
      have hm' := hm
      simp only [cellWfFrom, Bool.and_eq_true, decide_eq_true_eq] at hm'
      have hj := h j
      have hi := h i
      have hij : i = j := by
        by_contra hne
        rcases Nat.lt_or_gt_of_ne hne with hlt | hgt
        · have h1 := cellGet_below d t (j + 1) i hl'.2 (by omega)
          have h2 : j ≠ i := fun e => hne e.symm
          simp only [cellGet, if_neg h2, if_true, h1] at hi
          exact hm'.1.2 hi.symm
        · have h1 := cellGet_below d u (i + 1) j hm'.2 (by omega)
          simp only [cellGet, if_neg hne, if_true, h1] at hj
          exact hl'.1.2 hj
      subst hij
      have hv : v = w := by simpa [cellGet] using hj
      subst hv
      have ht : t = u := ih u (i + 1) hl'.2 hm'.2 fun k => by
        by_cases hk : i = k
        · subst hk
          rw [cellGet_below d t (i + 1) i hl'.2 (by omega), cellGet_below d u (i + 1) i hm'.2 (by omega)]
        · have := h k
          simpa [cellGet, hk] using this
      rw [ht]

end Sys2Proof.Machine
end

