-- ==== Sys2Proof/Laws/Reacts.lean ====
section
/-!
SUPPORT. What a firing can change, said once: `Reacts` is reflexive and transitive, each part of a firing satisfies it, and so
does a firing of any source; and a firing of a die that runs leaves the source's STAT.SRC bit at 1.
-/

namespace Sys2Proof.Machine

/-! ## Order -/

theorem ReactsEv.refl (x : EvBlock) : ReactsEv x x := ⟨rfl, by simp⟩

theorem ReactsEv.trans {x y z : EvBlock} (h : ReactsEv x y) (g : ReactsEv y z) : ReactsEv x z := by
  obtain ⟨h1, h2⟩ := h
  obtain ⟨g1, g2⟩ := g
  refine ⟨?_, ?_⟩
  · rw [h1] at g1; exact g1
  · rw [← g2, ← BitVec.or_assoc, h2]

theorem ReactsDie.trans {x y z : DieState} (h : ReactsDie x y) (g : ReactsDie y z) : ReactsDie x z := by
  unfold ReactsDie at *; rw [h] at g; exact g

theorem ReactsMoor.trans {x y z : MoorSt} (h : ReactsMoor x y) (g : ReactsMoor y z) : ReactsMoor x z := by
  unfold ReactsMoor at *; rw [h] at g; exact g

theorem ReactsTwin.trans {x y z : TwinSt} (h : ReactsTwin x y) (g : ReactsTwin y z) : ReactsTwin x z := by
  unfold ReactsTwin at *; rw [h] at g; exact g

theorem ReactsSvc.trans {x y z : SvcSt} (h : ReactsSvc x y) (g : ReactsSvc y z) : ReactsSvc x z := by
  unfold ReactsSvc at *; rw [h] at g; exact g

theorem ReactsPort.trans {x y z : Port} (h : ReactsPort x y) (g : ReactsPort y z) : ReactsPort x z := by
  unfold ReactsPort at *; rw [h] at g; exact g

theorem ReactsLio.refl (r : Bool) (x : LioSt) : ReactsLio r x x := ⟨fun _ => rfl, rfl, .inl rfl, .inl rfl⟩

theorem ReactsLio.trans {r : Bool} {x y z : LioSt} (h : ReactsLio r x y) (g : ReactsLio r y z) : ReactsLio r x z := by
  obtain ⟨h1, h2, h3, h4⟩ := h
  obtain ⟨g1, g2, g3, g4⟩ := g
  refine ⟨fun hr => (g1 hr).trans (h1 hr), ?_, ?_, ?_⟩
  · rw [h2] at g2; exact g2
  · rcases g3 with g | g
    · rw [g]; exact h3
    · exact .inr g
  · rcases g4 with g | g
    · rw [g]; exact h4
    · exact .inr g

theorem Reacts.refl (s : State) : Reacts s s :=
  ⟨rfl, rfl, fun _ => .refl _, rfl, rfl, rfl, rfl, rfl, .refl _ _, rfl, fun _ => rfl, List.prefix_refl _⟩

theorem Reacts.trans {s t u : State} (h : Reacts s t) (g : Reacts t u) : Reacts s u where
  frame := by have := g.frame; rw [h.frame] at this; exact this
  evLength := g.evLength.trans h.evLength
  evOf b := (h.evOf b).trans (g.evOf b)
  dieA := h.dieA.trans g.dieA
  dieB := h.dieB.trans g.dieB
  moor := h.moor.trans g.moor
  twin := h.twin.trans g.twin
  svc := h.svc.trans g.svc
  lio := h.lio.trans (by have := g.lio; rw [h.frame] at this; exact this)
  portsLength := g.portsLength.trans h.portsLength
  port n := (h.port n).trans (g.port n)
  sent := h.sent.trans g.sent

/-- A list of changes, each within what a firing may change. -/
theorem Reacts.foldl {α : Type} (f : State → α → State) (h : ∀ s a, Reacts s (f s a)) (l : List α) (s : State) :
    Reacts s (l.foldl f s) := by
  induction l generalizing s with
  | nil => exact .refl s
  | cons a l ih => exact (h s a).trans (ih _)

/-! ## Records, messages, sessions -/

theorem recAdd_reacts (s : State) (g : List Octets) : Reacts s (recAdd s g) := by
  unfold recAdd
  split
  · exact .refl s
  · exact ⟨rfl, rfl, fun _ => .refl _, rfl, rfl, rfl, rfl, rfl, .refl _ _, rfl, fun _ => rfl, List.prefix_refl _⟩

theorem recMake_reacts (s : State) (kind : Nat) (bd : Bool) (pay cont : Octets) : Reacts s (recMake s kind bd pay cont) :=
  recAdd_reacts s _

theorem recEvent_reacts (s : State) (src : Nat) (cq : Bool) (act sev blk added : Nat) (subj : BitVec 32) (bd : Bool) :
    Reacts s (recEvent s src cq act sev blk added subj bd) := recMake_reacts s _ _ _ _

theorem recTwin_reacts (s : State) (o n : Role) (c : BitVec 8) : Reacts s (recTwin s o n c) := recMake_reacts s _ _ _ _

theorem recHelm_reacts (s : State) (c : Nat) (o n : Option (Fin 8)) (ol nl np : Nat) : Reacts s (recHelm s c o n ol nl np) :=
  recMake_reacts s _ _ _ _

theorem sendAll_reacts (s : State) (xs : List Tx) : Reacts s (s.sendAll xs) :=
  ⟨rfl, rfl, fun _ => .refl _, rfl, rfl, rfl, rfl, rfl, .refl _ _, rfl, fun _ => rfl, List.prefix_append _ _⟩

theorem send_reacts (s : State) (x : Tx) : Reacts s (s.send x) := sendAll_reacts s [x]

/-- A change of the sessions, the Helm, and the messages that wait, come or leave. -/
theorem svc_reacts (s : State) (v : SvcSt) (by' : Option (Fin 8 × BitVec 32)) (h : ReactsSvc s.svc v) :
    Reacts s { s with svc := v, dict := { s.dict with commitBy := by' } } :=
  ⟨rfl, rfl, fun _ => .refl _, rfl, rfl, rfl, rfl, h, .refl _ _, rfl, fun _ => rfl, List.prefix_refl _⟩

theorem modSes_reacts (s : State) (k : Nat) (f : Session → Session) : Reacts s (s.modSes k f) :=
  svc_reacts s _ s.dict.commitBy rfl

theorem setSlot_reacts (s : State) (k r : Nat) (sl : Slot) : Reacts s (s.setSlot k r sl) := modSes_reacts s k _

theorem noSes_reacts (s : State) (k : Nat) : Reacts s (s.noSes k) := svc_reacts s _ _ rfl

theorem svcOut_reacts (s : State) (c : Client) (msg : Octets) (note : Option (Fin 8)) : Reacts s (svcOut s c msg note) := by
  unfold svcOut
  split
  · exact svc_reacts s _ s.dict.commitBy rfl
  · exact svc_reacts s _ s.dict.commitBy rfl
  · exact svc_reacts s _ s.dict.commitBy rfl
  · split
    · exact .refl s
    · exact send_reacts s _

theorem setHelm_reacts (s : State) (h : HelmSt) : Reacts s { s with svc := { s.svc with helm := h } } :=
  svc_reacts s _ s.dict.commitBy rfl

theorem helmNotify_reacts (s : State) (ks : List Nat) : Reacts s (helmNotify s ks) :=
  Reacts.foldl _ (fun s k => modSes_reacts s k _) _ s

theorem helmGive_reacts (s : State) (k : Fin 8) (c : Nat) : Reacts s (helmGive s k c) :=
  ((setHelm_reacts s _).trans (recHelm_reacts _ _ _ _ _ _ _)).trans (helmNotify_reacts _ _)

theorem helmSesEnd_reacts (s : State) (k : Fin 8) : Reacts s (helmSesEnd s k) := by
  unfold helmSesEnd
  dsimp only
  split
  · exact (setHelm_reacts s _).trans (recHelm_reacts _ _ _ _ _ _ _)
  · split
    · exact setHelm_reacts s _
    · exact .refl s

theorem sesPut_reacts (s : State) (k : Fin 8) (typ : Nat) (body : Octets) : Reacts s (sesPut s k typ body) := by
  unfold sesPut
  split
  · exact .refl s
  · split
    · exact .refl s
    · exact (modSes_reacts s k.val _).trans (svcOut_reacts _ _ _ _)

theorem slotDone_reacts (s : State) (k : Fin 8) (r status : Nat) (tx ift : Tide) (data : Octets) :
    Reacts s (slotDone s k r status tx ift data) := by
  unfold slotDone
  split
  · exact .refl s
  · exact (setSlot_reacts s _ _ _).trans (sesPut_reacts _ _ _ _)

theorem seizeDone_reacts (s : State) (z : Fin 8) : Reacts s (seizeDone s z) :=
  (helmGive_reacts s z 5).trans (slotDone_reacts _ _ _ _ _ _ _)

theorem sesGone_reacts (s : State) (k : Fin 8) : Reacts s (sesGone s k) := by
  unfold sesGone
  dsimp only
  split
  · split
    · exact (seizeDone_reacts s _).trans (noSes_reacts _ _)
    · exact (helmSesEnd_reacts s k).trans (noSes_reacts _ _)
  · exact (helmSesEnd_reacts s k).trans (noSes_reacts _ _)

theorem endSession_reacts (s : State) (k : Fin 8) : Reacts s (endSession s k) := by
  unfold endSession
  split
  · exact .refl s
  · dsimp only
    split
    · split
      · exact (sesGone_reacts s k).trans (sesGone_reacts _ _)
      · exact sesGone_reacts s k
    · exact sesGone_reacts s k

theorem sesSend_reacts (s : State) (k : Fin 8) (typ : Nat) (body : Octets) : Reacts s (sesSend s k typ body) := by
  unfold sesSend
  dsimp only
  split
  · exact (sesPut_reacts s _ _ _).trans (endSession_reacts _ _)
  · exact sesPut_reacts s _ _ _

theorem complete_reacts (s : State) (k : Fin 8) (r status : Nat) (tx ift : Tide) (data : Octets) :
    Reacts s (complete s k r status tx ift data) := by
  unfold complete
  dsimp only
  split
  · exact (slotDone_reacts s _ _ _ _ _ _).trans (endSession_reacts _ _)
  · exact slotDone_reacts s _ _ _ _ _ _

theorem seizeGrant_reacts (s : State) (z : Fin 8) : Reacts s (seizeGrant s z) := by
  unfold seizeGrant
  dsimp only
  split
  · exact (seizeDone_reacts s z).trans (endSession_reacts _ _)
  · exact seizeDone_reacts s z

theorem endSessions_reacts (s : State) (p : Session → Bool) : Reacts s (endSessions s p) := by
  refine Reacts.foldl _ (fun s k => ?_) _ s
  split
  · split
    · exact endSession_reacts s k
    · exact .refl s
  · exact .refl s

/-! ## Sources, moorings, roles -/

/-- A change of one block's event registers. -/
theorem modEv_reacts (s : State) (b : Nat) (f : EvBlock → EvBlock) (h : ∀ e, ReactsEv e (f e)) : Reacts s (s.modEv b f) := by
  refine ⟨?_, ?_, fun c => ?_, ?_, ?_, ?_, ?_, ?_, ?_, ?_, fun n => ?_, ?_⟩
  · unfold State.modEv; split <;> rfl
  · unfold State.modEv; split <;> simp
  · by_cases hc : c = b
    · subst hc
      by_cases h3 : c = 3
      · subst h3; simpa [State.modEv, State.evOf] using h s.evb
      · by_cases hl : c < s.ev.length
        · rw [State.modEv_evOf_self s c f hl]; exact h _
        · have : (s.modEv c f).evOf c = s.evOf c := by
            simp [State.modEv, State.evOf, h3, List.getD_eq_getElem?_getD, hl]
          rw [this]; exact .refl _
    · rw [State.modEv_evOf_ne s b c f hc]; exact .refl _
  case refine_9 => unfold State.modEv; split <;> exact .refl _ _
  all_goals (unfold State.modEv; split <;> rfl)

theorem evSetAt_reacts (s : State) (src : Nat) (gs : GSet) (subj : BitVec 32) (bd : Bool) (sv : Nat) :
    Reacts s (evSetAt s src gs subj bd sv) := by
  unfold evSetAt
  extract_lets b j cq e s1
  have h : Reacts s s1 := by
    refine modEv_reacts s _ _ fun e => ?_
    extract_lets e1
    have h1 : ReactsEv e e1 := ⟨rfl, by simp [e1, setBit, ← BitVec.or_assoc]⟩
    clear_value e1
    split
    · exact h1.trans ⟨rfl, by simp⟩
    · exact h1
  split
  · exact h
  · exact h.trans (recEvent_reacts _ _ _ _ _ _ _ _ _)

theorem evSet_reacts (s : State) (src : Nat) (gs : GSet) (subj : BitVec 32) (bd : Bool) :
    Reacts s (evSet s src gs subj bd) := evSetAt_reacts s _ _ _ _ _

/-- A change of a die within what a firing may change of it. -/
theorem setDie_reacts (s : State) (d : Die) (x : DieState) (h : ReactsDie (s.die d) x) : Reacts s (s.setDie d x) := by
  cases d
  · exact ⟨rfl, rfl, fun _ => .refl _, h, rfl, rfl, rfl, rfl, .refl _ _, rfl, fun _ => rfl, List.prefix_refl _⟩
  · exact ⟨rfl, rfl, fun _ => .refl _, rfl, h, rfl, rfl, rfl, .refl _ _, rfl, fun _ => rfl, List.prefix_refl _⟩

/-- A change of the moor sets within what a firing may change of them. -/
theorem moor_reacts (s : State) (m : MoorSt) (h : ReactsMoor s.moor m) : Reacts s { s with moor := m } :=
  ⟨rfl, rfl, fun _ => .refl _, rfl, rfl, h, rfl, rfl, .refl _ _, rfl, fun _ => rfl, List.prefix_refl _⟩

/-- A change of the pair within what a firing may change of it. -/
theorem twin_reacts (s : State) (x : TwinSt) (h : ReactsTwin s.twin x) : Reacts s { s with twin := x } :=
  ⟨rfl, rfl, fun _ => .refl _, rfl, rfl, rfl, h, rfl, .refl _ _, rfl, fun _ => rfl, List.prefix_refl _⟩

/-- Changes of both dies within what a firing may change of them. -/
theorem dies_reacts (s : State) (x y : DieState) (hx : ReactsDie s.a x) (hy : ReactsDie s.b y) :
    Reacts s { s with a := x, b := y } :=
  ⟨rfl, rfl, fun _ => .refl _, hx, hy, rfl, rfl, rfl, .refl _ _, rfl, fun _ => rfl, List.prefix_refl _⟩

/-- A change of the ports within what a firing may change of them. -/
theorem ports_reacts (s : State) (ps : List Port) (hl : ps.length = s.ports.length)
    (h : ∀ n, ReactsPort (s.ports.getD n {}) (ps.getD n {})) : Reacts s { s with ports := ps } :=
  ⟨rfl, rfl, fun _ => .refl _, rfl, rfl, rfl, rfl, rfl, .refl _ _, hl, h, List.prefix_refl _⟩

theorem modPort_reacts (s : State) (n : Nat) (f : Port → Port) (h : ∀ p, ReactsPort p (f p)) : Reacts s (s.modPort n f) := by
  refine ports_reacts s _ (by simp) fun m => ?_
  by_cases hm : m = n
  · subst hm
    by_cases hl : m < s.ports.length
    · rw [listMod_getD_self _ _ _ _ hl]; exact h _
    · simp [List.getD_eq_getElem?_getD, hl]; rfl
  · rw [listMod_getD_ne _ _ _ _ _ hm]; rfl

/-- The free-value counter, settling and block resets. -/
theorem settle_reacts (s : State) (st rs : List (RstUnit × Tide)) (n : Nat) :
    Reacts s { s with settle := st, resets := rs, draws := n } :=
  ⟨rfl, rfl, fun _ => .refl _, rfl, rfl, rfl, rfl, rfl, .refl _ _, rfl, fun _ => rfl, List.prefix_refl _⟩

theorem degradeAdd_reacts (s : State) (d : Die) (src : Nat) (gs : GSet) : Reacts s (degradeAdd s d src gs) := by
  unfold degradeAdd
  dsimp only
  have h1 := moor_reacts s { s.moor with newG := s.moor.newG ||| gs, gSrc := s.moor.gSrc ++ (gList gs).map fun g => (g, src) } rfl
  split
  · split
    · exact h1.trans (dies_reacts _ _ _ rfl rfl)
    · exact moor_reacts s _ rfl
  · split
    · exact h1.trans (setDie_reacts _ d _ (by cases d <;> rfl))
    · exact h1.trans (setDie_reacts _ d _ (by cases d <;> rfl))

/-- A die's commands go where no tide runs. -/
theorem dropCommands_reacts (s : State) (d : Die) (h : s.tide.running = false) : Reacts s (dropCommands s d) := by
  refine ⟨rfl, rfl, fun _ => .refl _, rfl, rfl, rfl, rfl, rfl, ⟨fun hr => ?_, ?_, ?_, ?_⟩, rfl, fun _ => rfl, List.prefix_refl _⟩
  · rw [h] at hr; exact absurd hr (by decide)
  all_goals cases d <;> simp [dropCommands]

theorem moorDecide_reacts (s : State) (d : Die) (src : Option Nat) : Reacts s (moorDecide s d src) := by
  unfold moorDecide
  extract_lets s0 s1
  have h0 : Reacts s s0 := by
    simp only [s0]
    split
    · exact .refl s
    · exact dropCommands_reacts s d (by simp_all)
  exact (h0.trans (setDie_reacts s0 d { s0.die d with mooring := true } rfl)).trans (moor_reacts _ _ rfl)

theorem fireCore_reacts (s : State) (src : Nat) (gs : GSet) (subj : BitVec 32) (bd : Bool) :
    Reacts s (fireCore s src gs subj bd) := by
  unfold fireCore
  dsimp only
  split
  · exact (evSet_reacts s _ _ _ _).trans (degradeAdd_reacts _ _ _ _)
  · split
    · exact (evSet_reacts s _ _ _ _).trans (moorDecide_reacts _ _ _)
    · exact evSet_reacts s _ _ _ _

/-- A change of role of a unit that is not in Resync. -/
theorem roleSet_reacts (s : State) (r : Role) (c : BitVec 8) (h : s.twin.role ≠ .resync) : Reacts s (roleSet s r c) := by
  unfold roleSet
  extract_lets s1 m
  have h1 : Reacts s s1 := recTwin_reacts s s.twin.role r c
  have h2 : s1.twin = s.twin := by simp only [s1, recTwin, recMake, recAdd]; split <;> rfl
  have hm : m = s1.moor := if_neg (by rw [h2]; exact h)
  clear_value s1
  rw [hm]
  have h3 : ReactsTwin s1.twin (s1.twin.enter r s.now) := rfl
  exact h1.trans ((twin_reacts s1 _ h3).trans (fireCore_reacts _ 87 0 0 false))

theorem laneLeaves_reacts (s : State) (p : Fin 4) (l : Lane) (q : List Lst) (n : Nat) : Reacts s (laneLeaves s p l q n) := by
  unfold laneLeaves
  split
  · exact .refl s
  · dsimp only
    cases l
    · exact (sendAll_reacts s _).trans (modPort_reacts _ _ _ fun _ => rfl)
    · exact sendAll_reacts s _

theorem portDrops_reacts (s : State) (p : Fin 4) : Reacts s (portDrops s p) := by
  unfold portDrops
  dsimp only
  split
  · refine Reacts.trans ?_ (modPort_reacts _ _ _ fun _ => rfl)
    exact ((laneLeaves_reacts s p .A _ _).trans (laneLeaves_reacts _ p .B _ _)).trans (settle_reacts _ _ _ _)
  · exact modPort_reacts s _ _ fun _ => rfl

/-- Changes of the moor sets and the ports within what a firing may change of them. -/
theorem moorPorts_reacts (s : State) (m : MoorSt) (ps : List Port) (hm : ReactsMoor s.moor m)
    (hl : ps.length = s.ports.length) (h : ∀ n, ReactsPort (s.ports.getD n {}) (ps.getD n {})) :
    Reacts s { s with moor := m, ports := ps } :=
  ⟨rfl, rfl, fun _ => .refl _, rfl, rfl, hm, rfl, rfl, .refl _ _, hl, h, List.prefix_refl _⟩

theorem moorFrames_reacts (s : State) : Reacts s (moorFrames s) := by
  unfold moorFrames
  split
  · dsimp only
    refine Reacts.trans ?_ (moorPorts_reacts _ _ _ rfl (by simp) fun n => ?_)
    · exact sendAll_reacts s _
    · simp only [List.getD_eq_getElem?_getD, List.getElem?_mapIdx]
      generalize (s.sendAll _).ports[n]? = o
      cases o with
      | none => rfl
      | some x => simp only [Option.map_some, Option.getD_some]; split <;> rfl
  · exact .refl s

theorem moorEffects_reacts (s : State) : Reacts s (moorEffects s) := by
  unfold moorEffects
  extract_lets s0 x s1
  have h0 : Reacts s s0 := Reacts.foldl _ portDrops_reacts _ s
  have h1 : Reacts s0 s1 := twin_reacts s0 _ rfl
  clear_value s1
  refine (h0.trans h1).trans ?_
  split
  · split
    · exact moor_reacts s1 { s1.moor with moorFrameDue := true } rfl
    · exact moorFrames_reacts s1
  · exact .refl s1
  · exact roleSet_reacts s1 .resync 1 (by assumption)

/-- Block resets with the service. -/
theorem svcResets_reacts (s : State) (rs : List (RstUnit × Tide)) (v : SvcSt) (h : ReactsSvc s.svc v) :
    Reacts s { s with resets := rs, svc := v } :=
  ⟨rfl, rfl, fun _ => .refl _, rfl, rfl, rfl, rfl, h, .refl _ _, rfl, fun _ => rfl, List.prefix_refl _⟩

theorem unitReset_reacts (s : State) (u : RstUnit) (path : Nat) : Reacts s (unitReset s u path) := by
  have h1 := settle_reacts s ((s.settle.filter fun x => x.1 ≠ u) ++ [(u, tideAdd s.now (Config.settleTides u))]) s.resets
    s.draws
  cases u with
  | fpe n => exact h1.trans ((portDrops_reacts _ n).trans (settle_reacts _ _ _ _))
  | mgp => exact h1.trans ((endSessions_reacts _ _).trans (settle_reacts _ _ _ _))
  | svc =>
    have key : ∀ s2, Reacts s s2 → Reacts s { s2 with
        resets := (s2.resets.filter fun x => x.1 ≠ .svc) ++ [(.svc, s.now)],
        svc := { s2.svc with
          failPath := BitVec.ofNat 2 path,
          posted := s2.svc.posted.map fun p => if p.ift.isNone then { p with gaveUp := true } else p } } :=
      fun s2 h => h.trans (svcResets_reacts s2 _ _ rfl)
    exact key _ (h1.trans (endSessions_reacts _ _))
  | pws _ => exact h1

/-- A firing of any source. -/
theorem fireAt_reacts (s : State) (src : Nat) (gs : GSet) (subj : BitVec 32) (bd : Bool) :
    Reacts s (fireAt s src gs subj bd) := by
  unfold fireAt
  dsimp only
  split
  · exact .refl s
  · have h : Reacts s (if s.applied src gs = 3 && detector src bd = .A then moorEffects (fireCore s src gs subj bd)
        else fireCore s src gs subj bd) := by
      split
      · exact (fireCore_reacts s _ _ _ _).trans (moorEffects_reacts _)
      · exact fireCore_reacts s _ _ _ _
    split
    · exact h.trans (unitReset_reacts _ _ _)
    · exact h

theorem fire_reacts (s : State) (src : Nat) (gs : GSet) (subj : BitVec 32) : Reacts s (fire s src gs subj) :=
  fireAt_reacts s src gs subj false

theorem fire1_reacts (s : State) (src : Nat) : Reacts s (fire1 s src) := fire_reacts s src 0 0

theorem fireIf_reacts (s : State) (c : Bool) (src : Nat) : Reacts s (fireIf s c src) := by
  unfold fireIf
  split
  · exact fire1_reacts s src
  · exact .refl s

theorem fireAll_reacts (s : State) (l : List (Nat × GSet × BitVec 32)) : Reacts s (fireAll s l) :=
  Reacts.foldl _ (fun s _ => fire_reacts s _ _ _) _ s

theorem mooring_reacts (s : State) (d : Die) : Reacts s (s.setDie d { s.die d with mooring := true }) :=
  setDie_reacts s d _ rfl

theorem moorSignal_reacts (s : State) (d : Die) : Reacts s (moorSignal s d) := by
  cases d
  · have h0 := moor_reacts s { s.moor with toA := false } rfl
    simp only [moorSignal]
    split
    · exact .refl s
    · split
      · exact h0
      · exact (h0.trans (mooring_reacts { s with moor := { s.moor with toA := false } } .A)).trans (moorEffects_reacts _)
  · have h0 := moor_reacts s { s.moor with toB := false } rfl
    simp only [moorSignal]
    split
    · exact .refl s
    · split
      · exact h0
      · exact h0.trans (mooring_reacts { s with moor := { s.moor with toB := false } } .B)

/-! ## The source's bit -/

/-- A bit that reads 1 stays so through what a firing may change. -/
theorem Reacts.fired {s t : State} (h : Reacts s t) (src : Nat) (hs : s.fired src = true) : t.fired src = true := by
  have h2 := (h.evOf (Config.blockOf src)).2
  unfold State.fired at *
  rw [← h2, BitVec.getLsbD_or, hs, Bool.true_or]

/-- A source number and its block's first number leave a local index below 16. -/
theorem local_lt (src : Fin 144) : src.val - Config.baseOf (Config.blockOf src.val) < 16 ∧ Config.blockOf src.val < 18 := by
  revert src; decide

theorem evSetAt_fired (s : State) (src : Fin 144) (gs : GSet) (subj : BitVec 32) (bd : Bool) (sv : Nat)
    (hl : s.ev.length = 18) : (evSetAt s src.val gs subj bd sv).fired src.val = true := by
  obtain ⟨hj, hb⟩ := local_lt src
  have h : ∀ f, (s.modEv (Config.blockOf src.val) f).evOf (Config.blockOf src.val) = f (s.evOf (Config.blockOf src.val)) :=
    fun f => State.modEv_evOf_self s _ f (by omega)
  have key : ∀ e : EvBlock, (setBit e.src (src.val - Config.baseOf (Config.blockOf src.val)) true).getLsbD
      (src.val - Config.baseOf (Config.blockOf src.val)) = true := by
    intro e
    simp only [setBit, if_true, BitVec.getLsbD_or, BitVec.getLsbD_ofNat, hj, Nat.testBit_two_pow_self]
    simp
  unfold evSetAt
  extract_lets b j cq e s1
  have h1 : s1.fired src.val = true := by
    unfold State.fired
    rw [show s1.evOf (Config.blockOf src.val) = _ from h _]
    extract_lets e1
    have : e1.src.getLsbD (src.val - Config.baseOf (Config.blockOf src.val)) = true := key _
    clear_value e1
    split <;> exact this
  clear_value s1
  split
  · exact h1
  · exact (recEvent_reacts _ _ _ _ _ _ _ _ _).fired _ h1

theorem evSet_fired (s : State) (src : Fin 144) (gs : GSet) (subj : BitVec 32) (bd : Bool) (hl : s.ev.length = 18) :
    (evSet s src.val gs subj bd).fired src.val = true := evSetAt_fired s src gs subj bd _ hl

theorem fireCore_fired (s : State) (src : Fin 144) (gs : GSet) (subj : BitVec 32) (bd : Bool) (hl : s.ev.length = 18) :
    (fireCore s src.val gs subj bd).fired src.val = true := by
  have h := evSet_fired s src gs subj bd hl
  unfold fireCore
  dsimp only
  split
  · exact (degradeAdd_reacts _ _ _ _).fired _ h
  · split
    · exact (moorDecide_reacts _ _ _).fired _ h
    · exact h

/-- A firing on a die that runs sets the source's bit. -/
theorem fireAt_fired (s : State) (src : Fin 144) (gs : GSet) (subj : BitVec 32) (bd : Bool) (hl : s.ev.length = 18)
    (hr : s.runs (detector src.val bd) = true) : (fireAt s src.val gs subj bd).fired src.val = true := by
  have h := fireCore_fired s src gs subj bd hl
  have h2 : ∀ c : Bool, (if c then moorEffects (fireCore s src.val gs subj bd) else fireCore s src.val gs subj bd).fired
      src.val = true := by
    intro c
    split
    · exact (moorEffects_reacts _).fired _ h
    · exact h
  unfold fireAt
  dsimp only
  rw [hr]
  simp only [Bool.not_true, Bool.false_eq_true, if_false]
  split
  · exact (unitReset_reacts _ _ _).fired _ (h2 _)
  · exact h2 _

end Sys2Proof.Machine
end

