-- ==== Sys2Proof/Laws/Events.lean ====
section
/-!
SUPPORT. Event registers, said once: what a firing keeps (the dies that run, the tide, the commanded sets, the stores), bits of
a field, records, and what a clear of STAT.SRC bits does and leaves.
-/

namespace Sys2Proof.Machine

/-! ## What a firing keeps -/

theorem Reacts.runs {s t : State} (h : Reacts s t) (d : Die) : t.runs d = s.runs d := by
  cases d
  · have := h.dieA; unfold ReactsDie at this; show (!t.a.inReset) = (!s.a.inReset); rw [this]
  · have := h.dieB; unfold ReactsDie at this; show (!t.b.inReset) = (!s.b.inReset); rw [this]

theorem Reacts.tide {s t : State} (h : Reacts s t) : t.tide = s.tide := by rw [h.frame]

theorem Reacts.pending {s t : State} (h : Reacts s t) : t.pending = s.pending := by rw [h.frame]

theorem Reacts.mode {s t : State} (h : Reacts s t) : t.mode = s.mode := by rw [h.frame]

theorem Reacts.man {s t : State} (h : Reacts s t) : t.man = s.man := by rw [h.frame]

theorem Reacts.tim {s t : State} (h : Reacts s t) : t.tim = s.tim := by rw [h.frame]

theorem Reacts.intake {s t : State} (h : Reacts s t) : t.intake = s.intake := by rw [h.frame]

theorem Reacts.nodes {s t : State} (h : Reacts s t) : t.nodes = s.nodes := by rw [h.frame]

theorem Reacts.norA {s t : State} (h : Reacts s t) : t.norA = s.norA := by rw [h.frame]

theorem Reacts.norB {s t : State} (h : Reacts s t) : t.norB = s.norB := by rw [h.frame]

theorem Reacts.mem {s t : State} (h : Reacts s t) : t.mem = s.mem := by rw [h.frame]

/-- While a tide runs, a firing changes nothing of the local I/O. -/
theorem Reacts.lio_eq {s t : State} (h : Reacts s t) (hr : s.tide.running = true) : t.lio = s.lio := h.lio.1 hr

theorem Reacts.eva {s t : State} (h : Reacts s t) : t.eva = s.eva := by rw [h.frame]

/-- A firing changes no set that is moored in force. -/
theorem Reacts.groupMoored {s t : State} (h : Reacts s t) (g : Nat) : t.groupMoored g = s.groupMoored g := by
  have := h.moor
  unfold ReactsMoor at this
  unfold State.groupMoored State.mooredM State.mooredG MoorSt.comG MoorSt.comM
  rw [this]

/-- The A-die detects every source but those of EVB and those the B-die is told of. -/
theorem detector_a (src : Nat) (h : Config.blockOf src ≠ 3) : detector src false = .A := by simp [detector, h]

/-- A source outside EVB that fires on a running A-die reads 1. -/
theorem fire_fired (s : State) (src : Fin 144) (gs : GSet) (subj : BitVec 32) (hl : s.ev.length = 18)
    (h : Config.blockOf src.val ≠ 3) (hr : s.runs .A = true) : (fire s src.val gs subj).fired src.val = true :=
  fireAt_fired s src gs subj false hl (by rw [detector_a _ h]; exact hr)

/-! ## Bits of a field -/

theorem setBit_getLsbD {w : Nat} (v : BitVec w) (j k : Nat) (b : Bool) (hk : k < w) :
    (setBit v j b).getLsbD k = if k = j then b else v.getLsbD k := by
  unfold setBit
  cases b
  · simp only [Bool.false_eq_true, if_false, BitVec.getLsbD_and, BitVec.getLsbD_not, BitVec.getLsbD_ofNat, hk, decide_true,
      Bool.true_and, Nat.testBit_two_pow]
    by_cases h : k = j
    · simp [h]
    · have : ¬ j = k := fun e => h e.symm
      simp [h, this]
  · simp only [if_true, BitVec.getLsbD_or, BitVec.getLsbD_ofNat, hk, decide_true, Bool.true_and, Nat.testBit_two_pow]
    by_cases h : k = j
    · simp [h]
    · have : ¬ j = k := fun e => h e.symm
      simp [h, this]

/-- A number summed from bits has exactly those bits. -/
theorem bitSum_testBit (p : Nat → Bool) (N : Nat) :
    (List.range N).foldl (fun a n => a + b2n (p n) * 2 ^ n) 0 < 2 ^ N
      ∧ ∀ n, ((List.range N).foldl (fun a n => a + b2n (p n) * 2 ^ n) 0).testBit n = (decide (n < N) && p n) := by
  induction N with
  | zero => simp
  | succ N ih =>
    obtain ⟨h1, h2⟩ := ih
    rw [List.range_succ, List.foldl_append]
    generalize (List.range N).foldl (fun a n => a + b2n (p n) * 2 ^ n) 0 = S at *
    simp only [List.foldl_cons, List.foldl_nil]
    cases hp : p N
    · simp only [b2n, Bool.false_eq_true, if_false, Nat.zero_mul, Nat.add_zero]
      refine ⟨by rw [Nat.pow_succ]; omega, fun n => ?_⟩
      rw [h2]
      by_cases hn : n = N
      · subst hn; simp [hp]
      · have : (n < N) = (n < N + 1) := by apply propext; omega
        simp [this]
    · simp only [b2n, if_true, Nat.one_mul]
      refine ⟨by rw [Nat.pow_succ]; omega, fun n => ?_⟩
      have : S + 2 ^ N = 2 ^ N * 1 ||| S := by rw [← Nat.two_pow_add_eq_or_of_lt h1]; omega
      rw [this, Nat.testBit_or, h2, Nat.mul_one, Nat.testBit_two_pow]
      by_cases hn : n = N
      · subst hn; simp [hp]
      · have : (n < N) = (n < N + 1) := by apply propext; omega
        have h3 : ¬ N = n := fun e => hn e.symm
        simp [this, h3]

theorem bitsOf_getLsbD (w : Nat) (p : Nat → Bool) (n : Nat) (hn : n < w) :
    (BitVec.ofNat w ((List.range w).foldl (fun a n => a + b2n (p n) * 2 ^ n) 0)).getLsbD n = p n := by
  rw [BitVec.getLsbD_ofNat, (bitSum_testBit p w).2]; simp [hn]

/-! ## Records and clears -/

/-- A record changes nothing but what the recorder holds. -/
theorem recEvent_frame (s : State) (src : Nat) (cq : Bool) (act sev blk added : Nat) (subj : BitVec 32) (bd : Bool) :
    ∃ r, recEvent s src cq act sev blk added subj bd = { s with rcd := r } := by
  unfold recEvent recMake recAdd
  split
  · exact ⟨s.rcd, rfl⟩
  · exact ⟨_, rfl⟩

/-- The records of a clear change nothing but what the recorder holds. -/
theorem recEvents_frame (f : State → Nat → State) (h : ∀ s k, ∃ r, f s k = { s with rcd := r }) (l : List Nat) (s : State) :
    ∃ r, l.foldl f s = { s with rcd := r } := by
  induction l generalizing s with
  | nil => exact ⟨s.rcd, rfl⟩
  | cons a l ih =>
    obtain ⟨r1, h1⟩ := h s a
    obtain ⟨r2, h2⟩ := ih (f s a)
    exact ⟨r2, by rw [List.foldl_cons, h2, h1]⟩

/-- Everything a clear changes: the block's registers, the sources kept for moored groups and the module, and records. -/
theorem evUnset_frame (s : State) (b : Nat) (bits : BitVec 16) (act : Nat) :
    evUnset s b bits act = { s with
      ev := (evUnset s b bits act).ev, evb := (evUnset s b bits act).evb, rcd := (evUnset s b bits act).rcd,
      moor := { s.moor with gSrc := (evUnset s b bits act).moor.gSrc, mSrc := (evUnset s b bits act).moor.mSrc } } := by
  unfold evUnset
  extract_lets e js srcs s1 x s2
  obtain ⟨r, h⟩ := recEvents_frame (fun s src => recEvent s src false act (s.sevOf src) b 0 0 (b = 3))
    (fun s k => recEvent_frame s k false act _ b 0 0 _) srcs s2
  rw [h]
  obtain ⟨v, w, h1⟩ : ∃ v w, s1 = { s with ev := v, evb := w } := by
    simp only [s1, State.modEv]
    split
    · exact ⟨_, _, rfl⟩
    · exact ⟨_, _, rfl⟩
  clear h
  subst x s2
  clear_value s1
  subst h1
  rfl

/-- STAT.SRC of every block after a clear of one. -/
theorem evUnset_src (s : State) (b c : Nat) (bits : BitVec 16) (act : Nat) (hb : b < s.ev.length) :
    ((evUnset s b bits act).evOf c).src = if c = b then (s.evOf b).src &&& ~~~ bits else (s.evOf c).src := by
  unfold evUnset
  extract_lets e js srcs s1 x s2
  obtain ⟨r, h⟩ := recEvents_frame (fun s src => recEvent s src false act (s.sevOf src) b 0 0 (b = 3))
    (fun s k => recEvent_frame s k false act _ b 0 0 _) srcs s2
  rw [h]
  show (s1.evOf c).src = _
  by_cases h : c = b
  · subst h
    simp only [s1, if_true]
    rw [State.modEv_evOf_self _ _ _ hb]
    split <;> rfl
  · rw [if_neg h, show s1.evOf c = s.evOf c from State.modEv_evOf_ne _ _ _ _ h]

end Sys2Proof.Machine
end

