-- ==== Sys2Proof/Laws/PerInstr.lean ====
section
/-!
SUPPORT. Statements about every command as syntax, one lemma per constructor. NoWord: spec/opcode_table.json gives no row any
bits, so no word of any length spells the command.
-/

namespace Sys2Proof.Laws.NoWord

/-- No word spells the command. -/
def Statement (i : Instr) : Prop := ∀ nbits w : Nat, decodeTableWord nbits w ≠ some i

theorem tideStart : Statement .tideStart := fun _ _ h => nomatch h
theorem heartbeatArrivalB : Statement .heartbeatArrivalB := fun _ _ h => nomatch h
theorem gangwayHeartbeatReceived (d : Die) (devPpm : Int) : Statement (.gangwayHeartbeatReceived d devPpm) := fun _ _ h => nomatch h
theorem gangwayHeartbeatTimeout (d : Die) : Statement (.gangwayHeartbeatTimeout d) := fun _ _ h => nomatch h
theorem gangwayFrameCrcFail (d : Die) : Statement (.gangwayFrameCrcFail d) := fun _ _ h => nomatch h
theorem inputCopyReceive (p : Fin 4) (l : Lane) (fa fb : Octets) : Statement (.inputCopyReceive p l fa fb) := fun _ _ h => nomatch h
theorem aVerdictReceived : Statement .aVerdictReceived := fun _ _ h => nomatch h
theorem landingNoticeReceived : Statement .landingNoticeReceived := fun _ _ h => nomatch h
theorem intakeClose (pins : PinSample) : Statement (.intakeClose pins) := fun _ _ h => nomatch h
theorem closeListReceived : Statement .closeListReceived := fun _ _ h => nomatch h
theorem channelAEvalComplete : Statement .channelAEvalComplete := fun _ _ h => nomatch h
theorem channelBEvalComplete : Statement .channelBEvalComplete := fun _ _ h => nomatch h
theorem comparisonStart : Statement .comparisonStart := fun _ _ h => nomatch h
theorem signatureFrameReceived (d : Die) : Statement (.signatureFrameReceived d) := fun _ _ h => nomatch h
theorem signatureDeadline : Statement .signatureDeadline := fun _ _ h => nomatch h
theorem verdictExchange : Statement .verdictExchange := fun _ _ h => nomatch h
theorem verdictFrameReceived (d : Die) : Statement (.verdictFrameReceived d) := fun _ _ h => nomatch h
theorem verdictDeadline (d : Die) : Statement (.verdictDeadline d) := fun _ _ h => nomatch h
theorem commitFence : Statement .commitFence := fun _ _ h => nomatch h
theorem mirroringStart : Statement .mirroringStart := fun _ _ h => nomatch h
theorem mirrorLate : Statement .mirrorLate := fun _ _ h => nomatch h
theorem emissionStart : Statement .emissionStart := fun _ _ h => nomatch h
theorem mirrorCompletenessCheck : Statement .mirrorCompletenessCheck := fun _ _ h => nomatch h
theorem guardStart (unsent : List Nat) : Statement (.guardStart unsent) := fun _ _ h => nomatch h
theorem bStatusMirror : Statement .bStatusMirror := fun _ _ h => nomatch h
theorem scrub (d : Die) (flips : List (BitVec 24 × BitVec 24)) : Statement (.scrub d flips) := fun _ _ h => nomatch h
theorem uncorrectableWord (site : UeSite) : Statement (.uncorrectableWord site) := fun _ _ h => nomatch h
theorem eventSourceFires (src : Fin 144) (gs : GSet) (subj : BitVec 32) : Statement (.eventSourceFires src gs subj) := fun _ _ h => nomatch h
theorem moorSignalReceived (d : Die) : Statement (.moorSignalReceived d) := fun _ _ h => nomatch h
theorem registerParityFault (b : Fin 18) : Statement (.registerParityFault b) := fun _ _ h => nomatch h
theorem settleEnd (u : RstUnit) : Statement (.settleEnd u) := fun _ _ h => nomatch h
theorem blockResetEnd (u : RstUnit) (ok : Bool) : Statement (.blockResetEnd u ok) := fun _ _ h => nomatch h
theorem evbSelfClear (found : BitVec 16) : Statement (.evbSelfClear found) := fun _ _ h => nomatch h
theorem eventClear (b : Fin 18) (bits found : BitVec 16) : Statement (.eventClear b bits found) := fun _ _ h => nomatch h
theorem severityWrite (b : Fin 18) (hi : Bool) (v : Word) : Statement (.severityWrite b hi v) := fun _ _ h => nomatch h
theorem eventFirstRead (b : Fin 18) : Statement (.eventFirstRead b) := fun _ _ h => nomatch h
theorem tideNumRead (committed : Bool) : Statement (.tideNumRead committed) := fun _ _ h => nomatch h
theorem timSourceClear (k : Fin 12) : Statement (.timSourceClear k) := fun _ _ h => nomatch h
theorem islandRailFault (d : Die) : Statement (.islandRailFault d) := fun _ _ h => nomatch h
theorem laneDown (p : Fin 4) (l : Lane) (present : Bool) : Statement (.laneDown p l present) := fun _ _ h => nomatch h
theorem hawserLinkDown (l : Lane) (present : Bool) : Statement (.hawserLinkDown l present) := fun _ _ h => nomatch h
theorem mgpLinkLoss : Statement .mgpLinkLoss := fun _ _ h => nomatch h
theorem ptpSyncSend : Statement .ptpSyncSend := fun _ _ h => nomatch h
theorem ptpAnnounceSend : Statement .ptpAnnounceSend := fun _ _ h => nomatch h
theorem ptpDelayReqReceived (p : Fin 4) (l : Lane) (ident : BitVec 80) (sequence : BitVec 16) : Statement (.ptpDelayReqReceived p l ident sequence) := fun _ _ h => nomatch h
theorem hawserSyncReceived (off : Int) : Statement (.hawserSyncReceived off) := fun _ _ h => nomatch h
theorem serviceFrameReceived (f : SvcFrame) : Statement (.serviceFrameReceived f) := fun _ _ h => nomatch h
theorem serviceReassemblyTimeout : Statement .serviceReassemblyTimeout := fun _ _ h => nomatch h
theorem enrolRequest : Statement .enrolRequest := fun _ _ h => nomatch h
theorem enrolAccept : Statement .enrolAccept := fun _ _ h => nomatch h
theorem enrolRefuse : Statement .enrolRefuse := fun _ _ h => nomatch h
theorem offerTimeout (n : Fin 8192) : Statement (.offerTimeout n) := fun _ _ h => nomatch h
theorem slowOffer (n : Fin 8192) : Statement (.slowOffer n) := fun _ _ h => nomatch h
theorem enrolEnd : Statement .enrolEnd := fun _ _ h => nomatch h
theorem hawserHeartbeatReceived (l : Lane) (fa fb : Octets) : Statement (.hawserHeartbeatReceived l fa fb) := fun _ _ h => nomatch h
theorem heartbeatDeadline : Statement .heartbeatDeadline := fun _ _ h => nomatch h
theorem mirrorFrameReceived (l : Lane) (fa fb : Octets) : Statement (.mirrorFrameReceived l fa fb) := fun _ _ h => nomatch h
theorem resyncLeaderTimeout : Statement .resyncLeaderTimeout := fun _ _ h => nomatch h
theorem twinHoldExpiry : Statement .twinHoldExpiry := fun _ _ h => nomatch h
theorem resyncStall : Statement .resyncStall := fun _ _ h => nomatch h
theorem pairCommitTimeout : Statement .pairCommitTimeout := fun _ _ h => nomatch h
theorem udpDatagramReceived (ip : BitVec 128) (port : BitVec 16) (frag : Bool) (copies : DieCopies) : Statement (.udpDatagramReceived ip port frag copies) := fun _ _ h => nomatch h
theorem sessOpen : Statement .sessOpen := fun _ _ h => nomatch h
theorem sessClose : Statement .sessClose := fun _ _ h => nomatch h
theorem request : Statement .request := fun _ _ h => nomatch h
theorem read (s : Fin 8) (r : Fin 16) : Statement (.read s r) := fun _ _ h => nomatch h
theorem write (s : Fin 8) (r : Fin 16) : Statement (.write s r) := fun _ _ h => nomatch h
theorem fence (s : Fin 8) (r : Fin 16) : Statement (.fence s r) := fun _ _ h => nomatch h
theorem helmRequest (s : Fin 8) (r : Fin 16) : Statement (.helmRequest s r) := fun _ _ h => nomatch h
theorem helmRelease (s : Fin 8) (r : Fin 16) : Statement (.helmRelease s r) := fun _ _ h => nomatch h
theorem helmHandover (s : Fin 8) (r : Fin 16) : Statement (.helmHandover s r) := fun _ _ h => nomatch h
theorem subscribe (s : Fin 8) (r : Fin 16) : Statement (.subscribe s r) := fun _ _ h => nomatch h
theorem helmLeaseExpiry : Statement .helmLeaseExpiry := fun _ _ h => nomatch h
theorem seizureNoticeEnd : Statement .seizureNoticeEnd := fun _ _ h => nomatch h
theorem sessionTimeout (s : Fin 8) : Statement (.sessionTimeout s) := fun _ _ h => nomatch h
theorem protectionWrite (s : Fin 8) (r : Fin 16) : Statement (.protectionWrite s r) := fun _ _ h => nomatch h
theorem levelKeyWrite (s : Fin 8) (r : Fin 16) : Statement (.levelKeyWrite s r) := fun _ _ h => nomatch h
theorem sessionClose (s : Fin 8) (r : Fin 16) : Statement (.sessionClose s r) := fun _ _ h => nomatch h
theorem settingsStoreWrite : Statement .settingsStoreWrite := fun _ _ h => nomatch h
theorem moorCommandGroups (s : Fin 8) (r : Fin 16) : Statement (.moorCommandGroups s r) := fun _ _ h => nomatch h
theorem moorCommandModule (s : Fin 8) (r : Fin 16) : Statement (.moorCommandModule s r) := fun _ _ h => nomatch h
theorem unmoorRequestGroups (s : Fin 8) (r : Fin 16) : Statement (.unmoorRequestGroups s r) := fun _ _ h => nomatch h
theorem unmoorRequestModule (s : Fin 8) (r : Fin 16) : Statement (.unmoorRequestModule s r) := fun _ _ h => nomatch h
theorem softRestart (s : Fin 8) (r : Fin 16) : Statement (.softRestart s r) := fun _ _ h => nomatch h
theorem benchEnter (s : Fin 8) (r : Fin 16) : Statement (.benchEnter s r) := fun _ _ h => nomatch h
theorem benchLeave (s : Fin 8) (r : Fin 16) : Statement (.benchLeave s r) := fun _ _ h => nomatch h
theorem partitionResume (s : Fin 8) (r : Fin 16) : Statement (.partitionResume s r) := fun _ _ h => nomatch h
theorem partitionSuspend (s : Fin 8) (r : Fin 16) : Statement (.partitionSuspend s r) := fun _ _ h => nomatch h
theorem tidePeriodWrite (s : Fin 8) (r : Fin 16) : Statement (.tidePeriodWrite s r) := fun _ _ h => nomatch h
theorem tideBudgetReportClear (s : Fin 8) (r : Fin 16) : Statement (.tideBudgetReportClear s r) := fun _ _ h => nomatch h
theorem nodeReenrol (s : Fin 8) (r : Fin 16) : Statement (.nodeReenrol s r) := fun _ _ h => nomatch h
theorem eventClearEntry (s : Fin 8) (r : Fin 16) (found : BitVec 16) : Statement (.eventClearEntry s r found) := fun _ _ h => nomatch h
theorem eventSeverityEntry (s : Fin 8) (r : Fin 16) : Statement (.eventSeverityEntry s r) := fun _ _ h => nomatch h
theorem powerRetry (s : Fin 8) (r : Fin 16) : Statement (.powerRetry s r) := fun _ _ h => nomatch h
theorem standbyTestNow (s : Fin 8) (r : Fin 16) : Statement (.standbyTestNow s r) := fun _ _ h => nomatch h
theorem manifestStageOpen (s : Fin 8) (r : Fin 16) : Statement (.manifestStageOpen s r) := fun _ _ h => nomatch h
theorem manifestStageClose (s : Fin 8) (r : Fin 16) : Statement (.manifestStageClose s r) := fun _ _ h => nomatch h
theorem manifestStageDiscard (s : Fin 8) (r : Fin 16) : Statement (.manifestStageDiscard s r) := fun _ _ h => nomatch h
theorem norEraseDone (ok : Bool) : Statement (.norEraseDone ok) := fun _ _ h => nomatch h
theorem manifestData (s : Fin 8) (r : Fin 16) (stuckA stuckB : Octets) (readBack : Bool) : Statement (.manifestData s r stuckA stuckB readBack) := fun _ _ h => nomatch h
theorem stageVerifyDone : Statement .stageVerifyDone := fun _ _ h => nomatch h
theorem stageProofStep (run : ProofRun) : Statement (.stageProofStep run) := fun _ _ h => nomatch h
theorem manifestCommit (s : Fin 8) (r : Fin 16) : Statement (.manifestCommit s r) := fun _ _ h => nomatch h
theorem commitConfirmed : Statement .commitConfirmed := fun _ _ h => nomatch h
theorem commitTimeout (failed : Bool) : Statement (.commitTimeout failed) := fun _ _ h => nomatch h
theorem commitSwap : Statement .commitSwap := fun _ _ h => nomatch h
theorem coneTableRebuilt : Statement .coneTableRebuilt := fun _ _ h => nomatch h
theorem backgroundManifestCheck (d : Die) : Statement (.backgroundManifestCheck d) := fun _ _ h => nomatch h
theorem svcPostLocal : Statement .svcPostLocal := fun _ _ h => nomatch h
theorem svcPostPeer : Statement .svcPostPeer := fun _ _ h => nomatch h
theorem svcMessageReceived (peer : Bool) : Statement (.svcMessageReceived peer) := fun _ _ h => nomatch h
theorem partitionAccessFault (k : Access) (addr : BitVec 24) : Statement (.partitionAccessFault k addr) := fun _ _ h => nomatch h
theorem fenceMem (ring : Ring) : Statement (.fenceMem ring) := fun _ _ h => nomatch h
theorem fencePort : Statement .fencePort := fun _ _ h => nomatch h
theorem fenceDict (reg : BitVec 8) : Statement (.fenceDict reg) := fun _ _ h => nomatch h
theorem fenceDictSettled : Statement .fenceDictSettled := fun _ _ h => nomatch h
theorem partitionInterrupt : Statement .partitionInterrupt := fun _ _ h => nomatch h
theorem classNWrite (ring : Ring) (v : Word) : Statement (.classNWrite ring v) := fun _ _ h => nomatch h
theorem runAheadEnableWrite (v : Word) : Statement (.runAheadEnableWrite v) := fun _ _ h => nomatch h
theorem tidePeriodRegisterWrite (v : Word) : Statement (.tidePeriodRegisterWrite v) := fun _ _ h => nomatch h
theorem registerWrite (ring : Ring) (addr : BitVec 24) (op : BusOp) : Statement (.registerWrite ring addr op) := fun _ _ h => nomatch h
theorem pulseCheck (ra rb : List (BitVec 32)) : Statement (.pulseCheck ra rb) := fun _ _ h => nomatch h
theorem afterCheck (ra rb : List (BitVec 32)) : Statement (.afterCheck ra rb) := fun _ _ h => nomatch h
theorem readbackSample (ra rb : BitVec 16) : Statement (.readbackSample ra rb) := fun _ _ h => nomatch h
theorem commandLinkTransfer (ok : Bool) : Statement (.commandLinkTransfer ok) := fun _ _ h => nomatch h
theorem outputTestReadbackPass (q : Fin 16) : Statement (.outputTestReadbackPass q) := fun _ _ h => nomatch h
theorem outputTestTimeout (q : Fin 16) : Statement (.outputTestTimeout q) := fun _ _ h => nomatch h
theorem outputTestEnd (q : Fin 16) (returned : Bool) : Statement (.outputTestEnd q returned) := fun _ _ h => nomatch h
theorem testAbort (q : Fin 16) : Statement (.testAbort q) := fun _ _ h => nomatch h
theorem outputOverload (q : Fin 16) : Statement (.outputOverload q) := fun _ _ h => nomatch h
theorem testFeedOverload (n : Fin 8) (stuck : Bool) : Statement (.testFeedOverload n stuck) := fun _ _ h => nomatch h
theorem sensOverload : Statement .sensOverload := fun _ _ h => nomatch h
theorem feedOutOfRange (side : Die) : Statement (.feedOutOfRange side) := fun _ _ h => nomatch h
theorem feedInRange (side : Die) (dc : Bool) : Statement (.feedInRange side dc) := fun _ _ h => nomatch h
theorem stageSoftStartDone (side : Die) : Statement (.stageSoftStartDone side) := fun _ _ h => nomatch h
theorem stageSelfCheckDone (side : Die) (ok : Bool) : Statement (.stageSelfCheckDone side ok) := fun _ _ h => nomatch h
theorem stageFailure (side : Die) (overVolt : Bool) : Statement (.stageFailure side overVolt) := fun _ _ h => nomatch h
theorem holdupCutoff : Statement .holdupCutoff := fun _ _ h => nomatch h
theorem dieRelease : Statement .dieRelease := fun _ _ h => nomatch h
theorem standbyTestStart : Statement .standbyTestStart := fun _ _ h => nomatch h
theorem standbyTestEnd (ok : Bool) : Statement (.standbyTestEnd ok) := fun _ _ h => nomatch h
theorem pwsCmdTest : Statement .pwsCmdTest := fun _ _ h => nomatch h
theorem pwsCmdRetry (a b : Bool) : Statement (.pwsCmdRetry a b) := fun _ _ h => nomatch h
theorem rstNClose (ohms : Nat) : Statement (.rstNClose ohms) := fun _ _ h => nomatch h
theorem rstPend : Statement .rstPend := fun _ _ h => nomatch h
theorem rstHold : Statement .rstHold := fun _ _ h => nomatch h
theorem rstLong : Statement .rstLong := fun _ _ h => nomatch h
theorem rstNOpen (ohms : Nat) (tenths : Word) : Statement (.rstNOpen ohms tenths) := fun _ _ h => nomatch h
theorem powerUp : Statement .powerUp := fun _ _ h => nomatch h
theorem fuseReadDone (x7 : BitVec 6) : Statement (.fuseReadDone x7) := fun _ _ h => nomatch h
theorem selfTestDone (failed : Option (Fin 7)) : Statement (.selfTestDone failed) := fun _ _ h => nomatch h
theorem manifestLoadDone : Statement .manifestLoadDone := fun _ _ h => nomatch h
theorem translateProveDone (vectors : Bool) : Statement (.translateProveDone vectors) := fun _ _ h => nomatch h
theorem fuseResense (ra rb : List (Word × Word)) : Statement (.fuseResense ra rb) := fun _ _ h => nomatch h
theorem fuseProgram (via : FuseVia) : Statement (.fuseProgram via) := fun _ _ h => nomatch h
theorem fuseSeal (via : FuseVia) : Statement (.fuseSeal via) := fun _ _ h => nomatch h
theorem fuseWlock (via : FuseVia) : Statement (.fuseWlock via) := fun _ _ h => nomatch h
theorem fuseRlock (via : FuseVia) : Statement (.fuseRlock via) := fun _ _ h => nomatch h
theorem fuseMap (via : FuseVia) : Statement (.fuseMap via) := fun _ _ h => nomatch h
theorem fuseReburn (via : FuseVia) : Statement (.fuseReburn via) := fun _ _ h => nomatch h
theorem fuseRead (via : FuseVia) : Statement (.fuseRead via) := fun _ _ h => nomatch h
theorem fuseCommandDone (pulses : BitVec 6) (ok : Bool) (lo hi : Word) : Statement (.fuseCommandDone pulses ok lo hi) := fun _ _ h => nomatch h
theorem fuseOverride (s : Fin 8) (r : Fin 16) : Statement (.fuseOverride s r) := fun _ _ h => nomatch h
theorem fuseOverrideClear (via : FuseVia) : Statement (.fuseOverrideClear via) := fun _ _ h => nomatch h
theorem pageProgram (ok : Bool) : Statement (.pageProgram ok) := fun _ _ h => nomatch h
theorem tideCheckpoint : Statement .tideCheckpoint := fun _ _ h => nomatch h
theorem chainCheck : Statement .chainCheck := fun _ _ h => nomatch h
theorem flushComplete : Statement .flushComplete := fun _ _ h => nomatch h
theorem recordDrop (p new old : Word) : Statement (.recordDrop p new old) := fun _ _ h => nomatch h
theorem recPageRead (oldest : Bool) : Statement (.recPageRead oldest) := fun _ _ h => nomatch h
theorem timerTick (n : Fin 16) : Statement (.timerTick n) := fun _ _ h => nomatch h
theorem timerReload (n : Fin 16) : Statement (.timerReload n) := fun _ _ h => nomatch h
theorem timerCompareFire (n : Fin 16) : Statement (.timerCompareFire n) := fun _ _ h => nomatch h
theorem timerCaptureEdge (n : Fin 16) (rising : Bool) : Statement (.timerCaptureEdge n rising) := fun _ _ h => nomatch h
theorem timerCntWrite (n : Fin 16) (v : Word) : Statement (.timerCntWrite n v) := fun _ _ h => nomatch h
theorem timerCmpWrite (n : Fin 16) (v : Word) : Statement (.timerCmpWrite n v) := fun _ _ h => nomatch h
theorem timerCapselWrite (n : Fin 16) (div : Bool) (v : Word) : Statement (.timerCapselWrite n div v) := fun _ _ h => nomatch h
theorem timerCntLowRead (n : Fin 16) (cap : Bool) (ring : Ring) : Statement (.timerCntLowRead n cap ring) := fun _ _ h => nomatch h
theorem timGo (v : Word) : Statement (.timGo v) := fun _ _ h => nomatch h
theorem timHalt (v : Word) : Statement (.timHalt v) := fun _ _ h => nomatch h
theorem debugHalt : Statement .debugHalt := fun _ _ h => nomatch h
theorem chkStart (k : Fin 4) : Statement (.chkStart k) := fun _ _ h => nomatch h
theorem chkCheck (k : Fin 4) : Statement (.chkCheck k) := fun _ _ h => nomatch h
theorem chkCheck2 (k : Fin 4) (ring : Ring) (flipsA flipsB : BitVec 24) : Statement (.chkCheck2 k ring flipsA flipsB) := fun _ _ h => nomatch h
theorem chkFeed8 (k : Fin 4) (v : Word) : Statement (.chkFeed8 k v) := fun _ _ h => nomatch h
theorem chkFeed16 (k : Fin 4) (v : Word) : Statement (.chkFeed16 k v) := fun _ _ h => nomatch h
theorem chkFeed9 (k : Fin 4) (v : Word) : Statement (.chkFeed9 k v) := fun _ _ h => nomatch h
theorem chkFeed18 (k : Fin 4) (v : Word) : Statement (.chkFeed18 k v) := fun _ _ h => nomatch h
theorem chkResLRead (k : Fin 4) : Statement (.chkResLRead k) := fun _ _ h => nomatch h
theorem manifestLoadRefused : Statement .manifestLoadRefused := fun _ _ h => nomatch h
theorem bellRelayRelease : Statement .bellRelayRelease := fun _ _ h => nomatch h
theorem laneUp (p : Fin 4) (l : Lane) : Statement (.laneUp p l) := fun _ _ h => nomatch h
theorem hawserLinkUp (l : Lane) : Statement (.hawserLinkUp l) := fun _ _ h => nomatch h
theorem islandRailRestored (d : Die) : Statement (.islandRailRestored d) := fun _ _ h => nomatch h
theorem debugResume : Statement .debugResume := fun _ _ h => nomatch h
theorem hawserSyncSend : Statement .hawserSyncSend := fun _ _ h => nomatch h

end Sys2Proof.Laws.NoWord
end

