-- ==== Sys2Proof/WellFormed.lean ====
section
/-!
DEFINITION. Which commands are well formed: the readings a command carries are as many as the manual says are taken, and a
burn reports no more pulses than a burn applies. Every other operand is bounded by its type. The meanings are total; a
command that is not well formed stands for no event of the hardware.
-/

namespace Sys2Proof

/-- How many reads each front end takes of its inputs (R184). -/
def readsPerSample : Nat := 5

/-- How many words one tide of a re-sense pass reads (R370). -/
def wordsPerResense : Nat := 8

/-- The transmit queues: four ports with two lanes each (R17, R207). -/
def fieldLaneCount : Nat := 8

/-- The most pulses applied to one bit (R377). -/
def maxPulses : Nat := 8

/-- Both front ends took their reads. -/
def PinSample.wellFormed (p : PinSample) : Bool := p.inA.length = readsPerSample && p.inB.length = readsPerSample

/-- A command is well formed. -/
def Instr.wellFormed (i : Instr) : Bool :=
  match i with
  | .intakeClose pins => pins.wellFormed
  | .guardStart unsent => unsent.length = fieldLaneCount
  | .pulseCheck ra rb => ra.length = readsPerSample && rb.length = readsPerSample
  | .afterCheck ra rb => ra.length = readsPerSample && rb.length = readsPerSample
  | .fuseResense ra rb => ra.length = wordsPerResense && rb.length = wordsPerResense
  | .fuseCommandDone pulses _ _ _ => pulses.toNat ≤ maxPulses
  | _ => true

end Sys2Proof
end

