-- ==== Sys2Proof/Tests/Slice0.lean ====
section
/-!
SUPPORT. Tests: values the manual states, one term that each check of `WellFormed` refuses, and for each statement concrete
states and operands that meet the hypotheses of its clauses together, at the ends of their ranges.
-/

namespace Sys2Proof.Tests

open Sys2Proof.Machine

-- one theorem at a time: each kernel evaluation in a thread of its own would fill the memory
set_option Elab.async false

/-! ## Values the manual states -/

/-- The octets of "123456789". -/
def digits : Octets := [0x31, 0x32, 0x33, 0x34, 0x35, 0x36, 0x37, 0x38, 0x39]

/-- R352 gives the check values of the three polynomials. -/
theorem test_crc_check_values :
    crc32c digits = 0xE3069283 ∧ crc16 digits = 0x29B1 := by decide +kernel

/-- R354: an engine under code 1 arrives at the same value. -/
theorem test_engine_crc32c :
    ((execAll (.chkStart 0 :: digits.map fun o => .chkFeed8 0 (o.setWidth 18))
      { State.reset with chk := { ctrl := 1 } :: List.replicate 3 {} }).map fun t => (t.eng 0).res) = some 0xE3069283 := by
  decide +kernel

/-- R90: a word survives one inverted bit; two are found. -/
theorem test_ecc : eccDecode (eccEncode 0o123456 ^^^ BitVec.twoPow 24 17) = some 0o123456
    ∧ eccDecode (eccEncode 0o123456 ^^^ BitVec.twoPow 24 17 ^^^ BitVec.twoPow 24 23) = none := by decide +kernel

/-- The memory form keeps one list for one memory: writing what an unlisted word reads as takes the entry away. -/
theorem test_cells : cellSet (0 : Word) (cellSet 0 [] 5 7) 5 0 = [] ∧ cellSet (0 : Word) (cellSet 0 [] 9 1) 5 7 = [(5, 7), (9, 1)] := by
  decide +kernel

/-- R46: tide numbers wrap at 2^36, and the number before 0 is earlier than 0. -/
theorem test_tide_wraps : tideAdd (BitVec.allOnes 36) 1 = 0 ∧ later (0 : Tide) (BitVec.allOnes 36) = true := by decide +kernel

/-- The declaration worked out after R94: node 0o421, slot 4, binary output, recorded, flashed at 50 per minute. -/
theorem test_declaration :
    let d : Decl := ⟨0o110000, 0o100421, 0o310004⟩
    d.kind = 2 ∧ d.cls = 0 ∧ d.recd = true ∧ d.ana = false ∧ d.safe = 0 ∧ d.smode = 1 ∧ d.source = 0o421 ∧ d.slot = 4
      ∧ d.frate = 50 := by decide

/-- The codeword worked out for its word 0 (R20, R90). -/
theorem test_codeword : eccEncode 0o110000 = 0o47110000 := by decide

/-- The fence of a 2 ms tide falls in tick 3,379 and 520 µs in tick 1,064 (the worked examples of POINT and of a port
engine's failure). -/
theorem test_ticks : Config.tickAt 1650 = 3379 ∧ Config.tickAt 520 = 1064 := by decide

/-- The POINT record worked out for tide 0x50001 (R408, R409). -/
theorem test_point_record : (match exec (.recordDrop 0o004000 0o600000 1)
      { State.reset with a := { inReset := false }, tide := { num := 0x50001, tick := 3379 } } with
    | .next t => t.rcd.queue
    | _ => []) = [[[0x10, 0, 5, 0, 1, 0x0D, 0x33, 0, 8, 0, 3, 0, 0, 0, 0, 1]]] := by decide +kernel

/-- The worked example of the time base: GO := 0o000120 starts timers 4 and 6, and 5 is the high word of the pair (R348). -/
theorem test_tim_go : (match exec (.timGo 0o120) { State.reset with tim := { t := List.replicate 4 {} ++
      [{ ctrl := 0o241174 }, { ctrl := 0o100000 }, { ctrl := 0o240174 }] ++ List.replicate 9 {} } } with
    | .next t => t.tim.t.map Timer.run
    | _ => []) = [false, false, false, false, true, false, true] ++ List.replicate 9 false := by decide +kernel

/-- The worked example of a weak fuse: bit 3 of word 0o224 reads 1 at the low reference and 0 at the high one (R370). -/
theorem test_weak_fuse :
    let f : FuseDie := { lo := [(0o224, 0o10)], hi := [(0o224, 0o10)], shLo := [(0o224, 0o10)], shHi := [(0o224, 0o10)] }
    cellGet 0 (resenseWord f 0o224 0o10 0).1.weak 0o224 = 0o10 ∧ (resenseWord f 0o224 0o10 0).2 = true := by decide +kernel

/-! ## Ill-formed commands -/

def fiveReads : List (BitVec 32) := List.replicate 5 0

theorem test_wf_intake_close : (Instr.intakeClose ⟨fiveReads, [0], 0, 0, 0, 0, 0⟩).wellFormed = false := by decide
theorem test_wf_guard_start : (Instr.guardStart [0]).wellFormed = false := by decide
theorem test_wf_pulse_check : (Instr.pulseCheck fiveReads []).wellFormed = false := by decide
theorem test_wf_after_check : (Instr.afterCheck [] fiveReads).wellFormed = false := by decide
theorem test_wf_resense : (Instr.fuseResense [] []).wellFormed = false := by decide
theorem test_wf_pulses : (Instr.fuseCommandDone 9 true 0 0).wellFormed = false
    ∧ (Instr.fuseCommandDone 8 true 0 0).wellFormed = true := by decide

/-! ## States for the witnesses -/

/-- Both dies run, tide 1,024 is in progress, and the module is in a mode. -/
def up (m : Mode) : State :=
  { State.reset with
    mode := m, a := { inReset := false }, b := { inReset := false }, tide := { running := true, num := 1024 } }

/-- A net with one AND of points 0 and 1 into point 2, in group 0. -/
def netT : Net :=
  { Net.empty with
    decls := [(0, ⟨0o040000, 0, 0⟩), (1, ⟨0o040000, 0, 0⟩), (2, ⟨0o040000, 0, 0⟩)],
    insts := [{ op := 0o010, ins := [0, 1], outs := [2], pars := [] }] }

/-- Both dies hold a net and take part in the comparison; the module is not moored. -/
def live : State :=
  { up .live with
    a := { inReset := false, net := some netT, armed := true, mooring := false }
    b := { inReset := false, net := some netT, armed := true, mooring := false }
    moor := { startup := false } }

/-- The same in phase p of its tide. -/
def livePh (p : BitVec 3) : State := { live with tide := { live.tide with ph := p } }

/-- The body of a REQUEST: OP, flags with RID 0, RN 7, entry, index, data (R281). -/
def reqBody (op entry : Nat) (index : Option Nat) (data : Octets) : Octets :=
  [BitVec.ofNat 8 op, if index.isSome then 64 else 0] ++ be 2 7 ++ be 3 entry ++ be 3 (index.getD 0)
    ++ be 2 data.length ++ data

/-- A request that waits. -/
def asked (op entry : Nat) (index : Option Nat) (data : Octets) : Slot :=
  { req := reqOf (reqBody op entry index data), cnt := 1, st := .waiting, ift := 0, resp := [] }

/-- A session of level l with one slot. -/
def sesOf (l : BitVec 2) (sl : Option Slot) : Session :=
  { level := l, client := .udp 1 2, nc := 1, nm := 2, rxHigh := 1, rxSeen := 3, txCnt := 0, last := 1024,
    slots := sl :: List.replicate 15 none, subs := [], writes := [], notes := [], late := [] }

/-- Session 0 at level 3 holds the Helm and its slot 0 holds a request. -/
def asks (s : State) (sl : Slot) : State :=
  { s with svc := { s.svc with
    ses := some (sesOf 3 (some sl)) :: List.replicate 7 none, helm := { holder := some 0, leaseEnd := 99999 } } }

/-- A WRITE in slot 0 passes every stage of R284 before its entry's own rule. -/
def passes (s : State) (entry : Nat) (index : Option Nat) (data : Octets) : Bool :=
  let sl := asked 1 entry index data
  (asks s sl).lasts 0 && (asks s sl).mayWriteNow 0 0 entry sl

/-! ## The machine as a whole -/

/-- The state after reset is legal (EveryStepKeepsLegalStates). -/
theorem wit_legal : Legal State.reset := by decide +kernel

/-- The states of the tests have the register files of the manual: the one hypothesis of the statements that name no other. -/
theorem wit_shaped : Shaped State.reset ∧ Shaped live ∧ StoresWf live := by decide +kernel

theorem wit_QueueRunsInOrder : State.reset.pending = [] ∧ State.reset.tide.running = false ∧ live.pending = []
    ∧ live.tide.running = true := by decide +kernel

def lstT : Lst :=
  { kind := 1, src := 1, dst := 2, tide := 1024, lane := .A, unit := false, subseq := 3, payload := [1, 2], sigA := 5, sigB := 6 }

theorem wit_FramesAreReadBackWhole : (0 : Nat) < 4096 ∧ 4095 < 4096 ∧ 65535 < 65536 ∧ lstT.payload.length ≤ 2 ∧ 2 < 65536
    ∧ (0 : Nat) ≠ 4095 := by decide

/-- An analogue point and a binary one, both with a safe value of their kind. -/
theorem wit_FieldsCarryValidWords :
    let a : Decl := ⟨0o067777, 0, 0⟩
    a.safe = 4095 ∧ a.ana = true
    ∧ (⟨0o040001, 0, 0⟩ : Decl).safe < 4096 ∧ (⟨0o040001, 0, 0⟩ : Decl).ana = false
    ∧ (netT.decl 0).ana = false ∧ ({ netT with decls := [(0, a)] } : Net).decl 0 = a
    ∧ (∀ p ∈ [0, 2], (netT.decl p).safe < 4096 ∧ ((netT.decl p).ana = false → valOf 0o400001 < 2)) := by decide +kernel

/-- AND with an operand that is 0 is determined whatever the other is; with the other 1 and one invalid it is not. SEL with
both inputs equal is determined without sel. -/
theorem wit_LogicOutputsAreDetermined :
    let fits (x : Bool) (w : Word) : Prop := wValid w = true → w.getLsbD 0 = x
    (∀ xs, List.Forall₂ fits xs [0, 0o400000] → xs.all id = false)
    ∧ (∀ v : Bool, ∃ xs, List.Forall₂ fits xs [1, 0o400000] ∧ xs.all id ≠ v)
    ∧ (fits true 0o400000 ∧ fits false 0o400000) ∧ wValid 5 = true ∧ (netT.inst 0).op = 0o010 := by
  refine ⟨?_, ?_, ?_, by decide +kernel, by decide +kernel⟩
  · rintro xs (_ | ⟨h1, _ | ⟨_, _⟩⟩)
    simp [← h1 (by decide)]
  · intro v
    refine ⟨[true, !v], .cons (fun _ => by decide) (.cons (fun h => ?_) .nil), by cases v <;> decide⟩
    exact absurd h (by decide)
  · exact ⟨fun h => absurd h (by decide), fun h => absurd h (by decide)⟩

/-- Group 0 is swept in tide 1,024; the instance keeps the operands it had, and its last word is not what it computes. -/
def sweepS : State :=
  { live with
    a := { live.a with working := [(0, 1), (1, 1)], lastOps := [some [1, 1]], inst := [.none], shadow := [.none] }
    eva := { batches := batchesOf netT } }

theorem wit_SweepsGuardTheChangeTracking : Shaped sweepS ∧ cellWf 0o600000 sweepS.a.working = true
    ∧ (sweepS.netX.inst 0).outs.map (·.toNat) = [2] ∧ isLogic (sweepS.netX.inst 0) = true
    ∧ inSweep sweepS.now (sweepS.netX.inst 0).group = true
    ∧ sweepS.a.lastOps.getD 0 none = some (operands sweepS .A sweepS.netX sweepS.a.working 0)
    ∧ (evalInst sweepS.netX sweepS.per sweepS.now (sweepS.groupMoored 0) (sweepS.netX.inst 0)
        (operands sweepS .A sweepS.netX sweepS.a.working 0) (sweepS.a.inst.getD 0 .none)).outs = [1]
    ∧ (sweepS.badInsts .A).contains 0 = false
    ∧ ((sweepS.rowFlip .A 0o01000000 3).badInsts .A).contains 0 = true ∧ bankGet sweepS.a.working 2 ≠ 1 := by decide +kernel

/-- Node 0, which has the points of the net, is on port 2. -/
def port2S : State :=
  { live with a := { live.a with net := some { netT with
    head := List.replicate 10 0 ++ [1], sec1 := List.replicate 16 0 ++ [0o400000] } } }

/-- The worked example of a port engine's failure: sources 68 and 71 fire in one tick; STAT.SRC reads 0o220 and FIRST 0o400107
(R316, R324). -/
theorem test_first_of_two : (match exec (.eventSourceFires 68 0 0) port2S with
    | .next s => (match exec (.eventSourceFires 71 0 0) s with
      | .next t => (((t.evOf 6).src.toNat, (t.evOf 6).firstWord.toNat) : Nat × Nat)
      | _ => (0, 0))
    | _ => (0, 0)) = (0o220, 0o400107) := by decide +kernel

/-! ## Check engines and timers -/

/-- Engines under the three codes of the signature algorithms. -/
def chkS : State := { State.reset with chk := [{ ctrl := 1 }, { ctrl := 2 }, { ctrl := 3 }, {}] }

theorem wit_EnginesComputeTheSignatures : Shaped chkS ∧ (chkS.eng 0).ctrl = 1 ∧ (chkS.eng 1).ctrl = 2
    ∧ (chkS.eng 2).ctrl = 3 := by decide +kernel

/-- A CHECK that passes and one that does not, and copies of R355 that are usable, past the end of memory, refused and
uncorrectable, on dies that run and on those of reset. -/
theorem wit_ChecksRun : Shaped chkS ∧ (chkS.eng 3).res = (chkS.eng 3).exp
    ∧ (({ chkS with chk := List.replicate 4 { exp := 1 } } : State).eng 3).res ≠ 1
    ∧ chkCopy chkS .exec 0o16000000 = (some 0, false) ∧ chkCopy chkS .exec 0o77777776 = (none, false)
    ∧ chkCopy chkS .part 0o16000000 = (none, true) ∧ chkCopy (chkS.rowFlip .A 0o16000001 3) .exec 0o16000000 = (none, false)
    ∧ chkS.runs .A = false ∧ live.runs .A = true := by decide +kernel

/-- Timer 0 runs below its period, 2 and 3 are a running pair at a wrap of the low word, 4 stands at its end, 6 selects
rising edges of an input, 8 and 9 are a running pair at the end of its period, 10 is frozen while the core is halted. -/
def timS : State :=
  { live with tim := { t :=
    [{ ctrl := 0o440000 }, {}, { ctrl := 0o600000, cnt := 0o777777, capsel := 0o614000 }, { ctrl := 0o300000 },
     { ctrl := 0o600000, per := 0, cmp := 1, arm := true }, {}, { capsel := 0o614400, eps := 1 }, {},
     { ctrl := 0o600000 }, { ctrl := 0o300000, per := 0, cnt := 1 }, { ctrl := 0o640000 }, {}, {}, {}, {}, {}] } }

/-- The same with the core halted and a GO and a HALT held for timers 0 and 10. -/
def timHalted : State :=
  { timS with tim := { timS.tim with halt := true, heldGo := 1, heldHalt := 1024 } }

theorem wit_TimersCountCompareAndTakeWrites : Shaped timS ∧ NoSlaves timS.tim
    ∧ timS.tim.ticks 0 = true ∧ timS.tim.isLow 0 = false ∧ timS.tim.isHigh 0 = false ∧ timS.tim.atEnd 0 = false
    ∧ timS.tim.ticks 1 = false
    ∧ timS.tim.ticks 2 = true ∧ timS.tim.isLow 2 = true ∧ timS.tim.atEnd 2 = false ∧ timS.tim.isHigh 3 = true
    ∧ timS.tim.ticks 4 = true ∧ timS.tim.isLow 4 = false ∧ timS.tim.atEnd 4 = true
    ∧ timS.tim.ticks 8 = true ∧ timS.tim.isLow 8 = true ∧ timS.tim.atEnd 8 = true := by decide +kernel

/-- Timer 6 captures the OUT level of timer 0. -/
def timOut : State := { timS with tim := { timS.tim with t := listMod timS.tim.t 6 fun t => { t with capsel := 0o604000 } } }

theorem wit_TimerCapturesAndReads : Shaped timS ∧ NoSlaves timS.tim ∧ timS.tim.quiet = true
    ∧ inSource (timS.tim.get 0).csel = false ∧ inSource (timS.tim.get 6).csel = true ∧ inSource (timS.tim.get 2).csel = true
    ∧ (timS.tim.get 0).selects true = false
    ∧ (!timS.tim.isHigh 6 && !timS.tim.frozen 6 && (timS.tim.get 6).selects true) = true
    ∧ (timS.tim.get 6).ecnt.toNat < (timS.tim.get 6).eps.toNat
    ∧ (!timS.tim.isHigh 2 && !timS.tim.frozen 2 && (timS.tim.get 2).selects true) = true
    ∧ (timS.tim.get 2).eps.toNat ≤ (timS.tim.get 2).ecnt.toNat ∧ timS.tim.isLow 2 = true
    ∧ (let s : State := { timS with tim := { timS.tim with t := listMod timS.tim.t 6 fun t => { t with ecnt := 1 } } }
      Shaped s ∧ NoSlaves s.tim ∧ (s.tim.get 6).eps.toNat ≤ (s.tim.get 6).ecnt.toNat ∧ s.tim.isLow 6 = false)
    ∧ Shaped timOut ∧ (∀ m : Fin 16, m ≠ 6 → (timOut.tim.get m.val).csel ≠ 8) ∧ (timOut.tim.get 6).csel = 8
    ∧ ringRuns timS .exec = true ∧ ringMay timS .exec .read 0o77130002 = true ∧ ringRuns State.reset .exec = false
    ∧ ringRuns timS .part = true ∧ ringMay timS .part .read 0o77130002 = false := by decide +kernel

/-- At a tide boundary: a source of the timers and one of the check engines that are due for clearing, or fired a tide too
late for it. -/
def timFired (since : Tide) : State :=
  let fires (ev : List EvBlock) (b : Nat) : List EvBlock :=
    listMod ev b fun e => { e with src := 1, since := listMod e.since 0 fun _ => some since }
  { live with ev := fires (fires live.ev 12) 13 }

theorem wit_TimerRunControl : Shaped timS ∧ timS.tim.halt = false ∧ Shaped timHalted ∧ timHalted.tim.halt = true
    ∧ timHalted.tim.frozen 0 = false ∧ (timHalted.tim.get 10).goen = true ∧ Shaped (timFired 512)
    ∧ timS.start.bench = false ∧ (timFired 512).runs .A = true ∧ (timFired 512).tide.ph = 0 ∧ (timFired 512).tide.tick = 0
    ∧ (∀ src ∈ [114, 122],
      let at0 (s : State) : Option Tide := (s.evOf (Config.blockOf src)).since.getD (src - Config.baseOf (Config.blockOf src)) none
      (timFired 512).fired src = true
        ∧ (at0 (timFired 512)).any (fun t => reached (timFired 512).now (tideAdd t 512)) = true
        ∧ (at0 (timFired 513)).any (fun t => reached (timFired 513).now (tideAdd t 512)) = false) := by decide +kernel

/-! ## Events, lanes, IEEE 1588, islands -/

/-- Sources of severity Record (54), Degrade with a group (22) and Moor (6, and 71 on a port without groups) act on dies that
run; the dies of reset do not. Words of each memory, one past its end, an engine's buffer. -/
theorem wit_SourcesFireAndMoor : Shaped live ∧ Shaped State.reset ∧ State.reset.runs (detector 22 false) = false
    ∧ live.runs (detector 22 false) = true ∧ live.applied 54 (affected live 54 0 0) ≤ 1
    ∧ live.applied 22 (affected live 22 0 0) = 2 ∧ live.applied 6 (affected live 6 0 0) = 3
    ∧ live.applied 71 (affected live 71 1 0) = 3 ∧ port2S.applied 71 (affected port2S 71 0 0) = 2
    ∧ detector 43 false = .B ∧ live.runs .B = true ∧ live.moor.toA = false
    ∧ ({ live with moor := { live.moor with toA := true } } : State).moor.toA = true
    ∧ ueSource live (.dataSram 0o23777777) = .inl (.A, 0o23777777) ∧ ueSource live (.bTable 0o24000000) = .inl (.B, 0o24000000)
    ∧ rowExists .A 0o23777777 = true ∧ rowExists .B 0o24000000 = false ∧ rowExists .A 0o40777777 = true
    ∧ ueSource live (.fpeBuffer 3) = .inr (79, 0, 0) ∧ (live.evOf 0).fSrc = 0o377 := by decide +kernel

/-- A unit in reset, and settling that ends at the tide in progress or at the next. -/
def resetS : State :=
  { live with resets := [(.fpe 2, 1020), (.svc, 1020)], settle := [(.mgp, 1024), (.mgp, 1025)] }

theorem wit_SettlingAndBlockResetsEnd : Shaped resetS ∧ resetS.unitDown .mgp = false ∧ resetS.unitDown (.fpe 2) = true
    ∧ resetS.unitDown .svc = true ∧ resetS.runs .A = true ∧ reached resetS.now 1024 = true
    ∧ reached resetS.now 1025 = false := by decide +kernel

/-- Source 12 of GWY has fired, in this tide (its cause persists) or in an earlier one; EVB holds a source for 65 tides. -/
def evS (since : Tide) : State :=
  { live with
    ev := listMod live.ev 1 fun e => { e with src := 16, last := listMod e.last 4 fun _ => some since }
    evb := { live.evb with src := 3, last := some 959 :: some 960 :: List.replicate 14 none } }

theorem wit_SourcesClearAndRegistersTakeWrites : Shaped (evS 1000) ∧ Shaped (evS 1024) ∧ (evS 1000).runs .A = true
    ∧ (evS 1000).runs .B = true ∧ State.reset.runs .A = false ∧ State.reset.runs .B = false
    ∧ Config.countOf 1 = 12 ∧ causePersists (evS 1024) 1 4 0 = true
    ∧ (∀ j : Fin 16, j.val < Config.countOf 1 → (16 : BitVec 16).getLsbD j.val = true →
        causePersists (evS 1000) 1 j.val 0 = false)
    ∧ reached (evS 0).now (tideAdd 959 65) = true ∧ reached (evS 0).now (tideAdd 960 65) = false
    ∧ sevWordAllowed 0 false 0 = false ∧ sevWordAllowed 0 false (Config.sevWord 0 false) = true
    ∧ sevWordAllowed 0 true 0 = true := by decide +kernel

theorem wit_LanesGoDownAndComeUp : Shaped live ∧ live.runs .A = true ∧ State.reset.runs .A = false
    ∧ resetS.unitDown (.fpe 2) = true ∧ resetS.unitDown (.fpe 3) = false ∧ resetS.runs .A = true ∧ Shaped resetS := by
  decide +kernel

/-- A Follower and a Leader; lane A of port 3 is up. -/
def ptpS (r : Role) : State :=
  { live with twin := { live.twin with role := r, upA := true }, ports := List.replicate 3 {} ++ [{ upA := true }] }

theorem wit_PtpMessagesLeave : Shaped (ptpS .leader) ∧ ptpLanes (ptpS .leader) = [(3, .A)] ∧ (ptpS .leader).tide.ph ≠ 5
    ∧ ptpRuns (ptpS .leader) = true ∧ ptpLanes { ptpS .leader with tide := { live.tide with ph := 5 } } = []
    ∧ (ptpS .follower).runs .A = true ∧ decide (250 < (251 : Int).natAbs) = true
    ∧ decide (250 < (-250 : Int).natAbs) = false ∧ State.reset.runs .A = false := by decide +kernel

/-- A word of the provisional table has one flipped cell and the next two; 64 words were corrected in the last 4,096 tides.
The relays have closed and Bell B has stopped, or swings in antiphase. -/
def scrubS (edgeB : Bool) : State :=
  let s := { livePh 3 with
    scrub := { table := 0, ce := [(1000, 64)] }
    b := { live.b with bell := true }, bells := { relay := true, bcon := true, edgeA := true, edgeB := edgeB } }
  (s.rowFlip .B 0 1).rowFlip .B 1 3

theorem wit_ScrubbingRelayAndMirror : Shaped (scrubS true) ∧ StoresWf (scrubS true) ∧ rowExists .B 0 = true
    ∧ (scrubS true).runs .B = true ∧ (scrubS true).tide.ph = 3 ∧ (livePh 5).tide.ph = 5 ∧ (livePh 4).tide.ph ≠ 3
    ∧ (livePh 4).tide.ph ≠ 5 ∧ State.reset.runs .B = false
    ∧ maskBad (cellGet 0 (scrubS true).rows (rowKey .B 0)) = false ∧ maskBad (cellGet 0 (scrubS true).rows (rowKey .B 1)) = true
    ∧ scrubFixes (scrubS true) = 1 ∧ later (tideAdd 1000 4096) (scrubS true).now = true
    ∧ live.bells.relay = false ∧ (scrubS true).tide.running = true ∧ (scrubS true).a.bell ≠ (scrubS true).b.bell
    ∧ (scrubS false).bells.relay = true ∧ (scrubS false).bells.edgeB = false ∧ Shaped (scrubS false)
    ∧ Shaped (livePh 5) ∧ StoresWf (livePh 5) ∧ (livePh 5).runs .A = true ∧ (livePh 5).runs .B = true := by decide +kernel

/-- The B-die's rail is out of tolerance since power-up, so that its fuses have never been sensed. -/
def railS (m : Mode) : State :=
  { up m with b := {}, pws := { (up m).pws with railA := true, railB := true, released := true } }

theorem wit_IslandSupervisorsHoldDies : Shaped live ∧ live.runs .A = true ∧ live.runs .B = true ∧ live.rail .A = false
    ∧ Shaped State.reset ∧ State.reset.runs .A = false ∧ State.reset.pws.released = false
    ∧ (∀ m ∈ [Mode.load, .fuseRead, .off], Shaped (railS m) ∧ (railS m).rail .A = true ∧ (railS m).rail .B = true
      ∧ (railS m).pws.released = true ∧ (railS m).mode = m ∧ (railS m).fus.b.sensed = false) := by decide +kernel

/-! ## The service -/

/-- A landed SERVICE frame with payload p. -/
def landed (kind : BitVec 4) (p : Octets) : RxCopy :=
  { copy := 1, port := 0, lane := .A, f := { lstT with kind := kind, src := 0, payload := p } }

/-- A frame on the line, from the source address 0. -/
def wireT (f : Lst) : Octets :=
  let body := macOf f.dst ++ List.replicate 6 0 ++ [0x81, 0x00] ++ be 2 (6 * 8192) ++ be 2 0
    ++ lstHeader f false ++ f.payload ++ be 4 f.sigA.toNat ++ be 4 f.sigB.toNat ++ List.replicate (18 - f.payload.length) 0
  body ++ fcs body

/-- A SERVICE frame of the other unit on lane A. -/
def peerFrame : Lst := lstSign live.salt { lstT with kind := 2, src := 0, dst := 0, subseq := 0, unit := true, payload := [0x80, 7, 9] }

/-- The module holds a Manifest, so that frames of the Hawser have a network. -/
def hawserS : State := { live with man := { live.man with slot := 0, active := List.replicate 32 0 } }

/-- A partial message that some fragments have joined. -/
def asmT : Assembly := { src := .own, tag := 7, since := 0, parts := [], last := none }

set_option maxRecDepth 100000 in
/-- A first fragment of two, the only one of a message, and one without its two octets; tapped or not; a peer's message for the
partition's ring, with SVC in reset or not; a Hawser frame that both dies accept. -/
theorem wit_ServiceFramesAssemble : live.intake.landedSvc = []
    ∧ (∀ p : Octets, p ∈ [[0, 7, 9], [0x80, 7, 9], [5]] →
        ({ live with intake := { landedSvc := [landed 2 p] } } : State).intake.landedSvc = landed 2 p :: [])
    ∧ (asmT.put 0 true [9] none).message = some ([9], none) ∧ (asmT.put 0 false [9] none).message = none
    ∧ (asmT.put 0 true [9] (some { since := 0, octets := [8] })).message = some ([9], some { since := 0, octets := [8] })
    ∧ hawserCopies live .A 2 210 live.salt [] [] = none
    ∧ (hawserCopies hawserS .A 2 210 hawserS.salt (wireT peerFrame) (wireT peerFrame)) = some (peerFrame, peerFrame)
    ∧ (dupTake hawserS.twin.hbWins peerFrame).isSome = true
    ∧ toRing [0x11] = true ∧ toRing [0x12] = false ∧ live.unitDown .svc = false ∧ resetS.unitDown .svc = true
    ∧ reached live.now (tideAdd 960 64) = true ∧ reached live.now (tideAdd 961 64) = false := by
  refine ⟨?_, ?_, ?_, ?_, ?_, ?_, ?_, ?_, ?_, ?_, ?_, ?_, ?_, ?_⟩ <;> decide +kernel

/-- A message of session 0 at level 3 with its key. -/
def sesMsg (typ : Nat) (cnt : BitVec 32) (body : Octets) : Octets :=
  svcMessage (List.replicate 32 0) (be 8 1) (be 8 2) typ 0 3 cnt body

/-- An OPEN of level 3 under a key. -/
def openMsg (key : Octets) (cnt : BitVec 32) (nonce : Octets) : Octets :=
  svcMessage key nonce (List.replicate 8 0) 0 0 3 cnt nonce

def nonceT : Octets := [1, 2, 3, 4, 5, 6, 7, 8]

/-- Session 0 at level 3 under a key of zeros. -/
def sesS : State :=
  { asks live (asked 0 0 none []) with dict := { live.dict with keys := [none, none, none, some (List.replicate 32 0)] } }

/-- An authentic OPEN, one with a counter, one of level 0 (no key), one under another key, authentic ones with a session number
and with a short body; the counters that a session takes, one that it has taken, and a message of another client. -/
theorem wit_MessagesAreAuthenticated :
    let c0 := Client.udp 1 2
    let key := List.replicate 32 (0 : Byte)
    let zero := List.replicate 8 (0 : Byte)
    let own (c : Client) (m : Octets) : Bool := (sesS.ses 0).any fun y =>
      decide (y.client = c) && decide (y.level = (msgOf c m).level)
        && macPasses ((sesS.key y.level.toNat).getD []) (be 8 y.nc.toNat) (be 8 y.nm.toNat) m
    let fits (m : Octets) : Bool := serviceUp sesS c0 && msgForm m
    let authentic (m : Octets) : Bool := decide ((msgOf c0 m).cnt = 0) && macPasses key (msgOf c0 m).body zero m
    (Shaped sesS ∧ serviceUp State.reset .own = false ∧ msgForm [] = false ∧ sesS.key 3 = some key ∧ sesS.key 0 = none)
    ∧ (let m := openMsg key 0 nonceT
      fits m = true ∧ (msgOf c0 m).typ = 0 ∧ (msgOf c0 m).ses = some 0 ∧ (msgOf c0 m).body.length = 8
        ∧ (msgOf c0 m).level = 3 ∧ authentic m = true)
    ∧ (∀ m ∈ [openMsg key 1 nonceT, openMsg [1] 0 nonceT], fits m = true ∧ (msgOf c0 m).level = 3 ∧ authentic m = false)
    ∧ (let m := svcMessage key nonceT zero 0 0 0 0 nonceT
      fits m = true ∧ (msgOf c0 m).typ = 0 ∧ (msgOf c0 m).level = 0)
    ∧ (let m := openMsg key 0 [1]
      fits m = true ∧ authentic m = true ∧ (msgOf c0 m).body.length ≠ 8)
    ∧ (let m := svcMessage key nonceT zero 0 1 3 0 nonceT
      fits m = true ∧ authentic m = true ∧ (msgOf c0 m).ses ≠ some 0)
    ∧ (sesS.ses 0).any (fun y => (winTake y.rxHigh y.rxSeen 2).isSome) = true
    ∧ (sesS.ses 0).any (fun y => (winTake y.rxHigh y.rxSeen 0xFFFFFFFF).isSome) = true
    ∧ (sesS.ses 0).any (fun y => (winTake y.rxHigh y.rxSeen 1).isNone) = true
    ∧ own (.peer true) (sesMsg 2 2 []) = false ∧ (live.ses 0).isNone = true := by
  refine ⟨?_, ?_, ?_, ?_, ?_, ?_, ?_, ?_, ?_, ?_, ?_⟩ <;> decide +kernel

/-- The service takes a message of session 0 with this type and counter as authentic. -/
def sesAuthentic (typ : Nat) (cnt : BitVec 32) : Prop :=
  let m := sesMsg typ cnt []
  serviceUp sesS (.udp 1 2) = true ∧ msgForm m = true ∧ (msgOf (.udp 1 2) m).typ.toNat = typ
    ∧ (msgOf (.udp 1 2) m).ses = some 0 ∧ (msgOf (.udp 1 2) m).level = 3 ∧ (msgOf (.udp 1 2) m).cnt = cnt
    ∧ macPasses ((sesS.key 3).getD []) (be 8 1) (be 8 2) m = true

/-- Authentic messages of session 0 with the next counter and with the last: a REQUEST, a CLOSE, and one that only a module
sends. -/
theorem wit_MessagesAreAuthenticated_session :
    sesAuthentic 1 2 ∧ sesAuthentic 2 2 ∧ sesAuthentic 5 0xFFFFFFFF ∧ sesAuthentic 2 0xFFFFFFFF := by
  unfold sesAuthentic
  refine ⟨?_, ?_, ?_, ?_⟩ <;> decide +kernel

/-- A node of type 0 on port 0 that waits with an offer of this tide. -/
def enrolS (op : Byte) (len : Nat) : State :=
  { live with
    a := { live.a with net := some { netT with head := List.replicate 10 0 ++ [1] } }
    nodes := [{ waiting := true, offerAt := some 1024 }]
    intake := { landedEnrol := [landed 3 (op :: List.replicate (len - 1) 0)] } }

/-- The ACCEPT that echoes the offer of node 0. -/
def acceptPayload : Octets :=
  [2, 0, 0] ++ be 4 (tcrc (enrolS 2 21).netA 0).toNat ++ (enrolS 2 21).salt ++ List.replicate 10 0

theorem wit_EnrolFramesAct :
    (∀ x ∈ [((0 : Byte), enrolLen 0), (2, enrolLen 2), (3, enrolLen 3)],
      let s := enrolS x.1 x.2
      Shaped s ∧ s.intake.landedEnrol = [] ++ landed 3 (x.1 :: List.replicate (x.2 - 1) 0) :: []
        ∧ enrolForm s x.1.toNat (landed 3 (x.1 :: List.replicate (x.2 - 1) 0)) = true)
    ∧ (enrolS 0 13).netA.nodeType 0 = 0 ∧ field (0 :: List.replicate 12 0) 3 4 = 0
    ∧ field ([0, 0, 0, 0, 0, 0, 1] ++ List.replicate 6 0) 3 4 ≠ (enrolS 0 13).netA.nodeType 0
    ∧ enrolForm (enrolS 0 5) 0 (landed 3 [0]) = false ∧ acceptPayload.length = enrolLen 2
    ∧ acceptHolds (enrolS 2 21) 0 acceptPayload = true ∧ acceptHolds (enrolS 2 21) 0 [] = false
    ∧ ((enrolS 3 13).nodes.getD 0 {}).waiting = true ∧ (∀ x ∈ live.intake.landedEnrol, field x.f.payload 0 1 ≠ 0) := by
  decide +kernel

/-- Node 0 in the states of R230 with an offer of a tide. -/
def offered (x : NodeRec) (since : Tide) : State := { live with nodes := [{ x with offerAt := some since }] }

/-- The module in Enrol with a node that is enrolled at some tide. -/
def enrolling (at0 since : Tide) : State :=
  { up .enrol with nodes := [{ enrolAt := some at0 }], enrol := { since := since } }

theorem wit_OffersTimeOutAndEnrolEnds :
    Shaped (offered {} 0) ∧ (offered {} 0).armedMode = true ∧ offerAge (offered {} 1008) 0 16 = true
    ∧ offerAge (offered {} 1009) 0 16 = false ∧ offerAge (offered {} 768) 0 256 = true
    ∧ offerAge (offered {} 769) 0 256 = false
    ∧ Shaped (enrolling 1025 1024) ∧ (enrolling 1025 1024).mode = .enrol ∧ (enrolling 0 0).start.modeNext = none
    ∧ (∀ k, k < (enrolling 1025 1024).nodes.length → enrolledNext (enrolling 1025 1024) k = true)
    ∧ enrolledNext (enrolling 1026 1024) 0 = false
    ∧ reached (tideAdd (enrolling 1026 1).now 1) (tideAdd 1 1024) = true
    ∧ reached (tideAdd (enrolling 1026 2).now 1) (tideAdd 2 1024) = false := by decide +kernel

/-- A message of this type in the inbox. -/
def boxed (s : State) (typ : BitVec 4) (body : Octets) : State :=
  { s with svc := { s.svc with inbox := [{ ses := some 0, client := .own, typ := typ, level := 3, cnt := 2, body := body }] } }

/-- Every session number is taken. -/
def fullS : State := { live with svc := { live.svc with ses := List.replicate 8 (some (sesOf 1 none)) } }

theorem wit_SessionsOpen :
    Shaped (boxed live 0 nonceT)
    ∧ (∃ m, (boxed live 0 nonceT).svc.inbox = [] ++ m :: [] ∧ m.typ = 0 ∧ (∀ x ∈ ([] : List InMsg), x.typ ≠ 0))
    ∧ (∀ m ∈ live.svc.inbox, m.typ ≠ 0) ∧ resetS.unitDown .svc = true ∧ (boxed live 0 nonceT).unitDown .svc = false
    ∧ live.mode ≠ .fuseRead ∧ live.mode ≠ .selfTest ∧ (∃ k : Fin 8, live.ses k.val = none)
    ∧ Shaped fullS ∧ (∀ k : Fin 8, (fullS.ses k.val).isSome) ∧ (up .fuseRead).mode = .fuseRead := by
  refine ⟨?_, ⟨_, rfl, ?_, ?_⟩, ?_, ?_, ?_, ?_, ?_, ?_, ?_, ?_, ?_⟩ <;> decide +kernel

/-- Session 0 holds the Helm and session 1 seizes it with the request in its slot 0; 30,000 tides of 2 ms are 60 s. -/
def seizeS (last : Tide) : State :=
  { live with svc := { live.svc with
    ses := [some { sesOf 3 none with last := last }, some (sesOf 3 (some { asked 3 0o140000 none [1] with st := .seizing }))]
      ++ List.replicate 6 none
    helm := { holder := some 0, seizer := some 1, noticeEnd := 9999, leaseEnd := 99999 } } }

theorem wit_SessionsEnd :
    Shaped (boxed sesS 5 []) ∧ (∀ m ∈ live.svc.inbox, m.typ ≠ 5) ∧ (live.ses 0).isNone = true
    ∧ (boxed sesS 5 []).svc.helm.seizer = none ∧ (∀ m ∈ (boxed sesS 5 []).svc.inbox, m.typ = 5 ∧ m.ses = some 0)
    ∧ (boxed sesS 5 []).svc.inbox.length = 1 ∧ (boxed sesS 5 []).unitDown .svc = false
    ∧ (boxed sesS 5 []).ses 0 = some (sesOf 3 (some (asked 0 0 none [])))
    ∧ reached sesS.now (tideAdd 1024 (sesS.tides 60000)) = false ∧ sesS.tides 60000 = 30000
    ∧ (let s := seizeS (tideAdd 1024 (2 ^ 36 - 30000))
      Shaped s ∧ (s.ses 0).any (fun x => reached s.now (tideAdd x.last (s.tides 60000))) = true
        ∧ s.svc.helm.seizer = some 1 ∧ s.svc.helm.holder = some 0 ∧ s.lasts 1 = true
        ∧ s.slot 1 s.svc.helm.seizeRid.toNat = some { asked 3 0o140000 none [1] with st := .seizing }) := by decide +kernel

/-- Slot 0 of session 0 in a state of R282. -/
def slotS (st : SlotSt) : State := asks live { asked 0 0 none [] with st := st }

/-- A new REQUEST (another slot state with the same or another RN), a short one, one with a reserved OP. -/
theorem wit_RequestsTakeTheirSlots :
    (∀ st ∈ [SlotSt.waiting, .seizing, .done],
      Shaped (boxed (slotS st) 2 []) ∧ (slotS st).lasts 0 = true ∧ (slotS st).ses 0 = some (sesOf 3 (some { asked 0 0 none [] with st := st }))
      ∧ (∀ m ∈ (boxed (slotS st) 2 []).svc.inbox, m.typ = 2 ∧ m.ses = some 0))
    ∧ (sesOf 3 none).slots.length = 16 ∧ (reqBody 0 0 none []).length = 12 ∧ (reqOf (reqBody 0 0 none [])).rid = 0
    ∧ (reqOf (reqBody 0 0 none [])).rn = 7 ∧ (reqOf [0, 0, 0, 8]).rn = 8
    ∧ (reqOf (reqBody 6 0 none [])).op.toNat ≤ 6 ∧ 6 < (reqOf (reqBody 7 0 none [])).op.toNat
    ∧ ((boxed sesS 2 []).slot 0 1).isNone = true ∧ (boxed sesS 2 []).unitDown .svc = false
    ∧ (entOf 0o777777).isNone = true ∧ (entOf 0o140200).isSome = true := by decide +kernel

/-- A request that is ready and one that waits behind a fence. -/
theorem wit_RequestsWaitForTheirTurn :
    readyOp (asks live (asked 0 0 none [])) 0 0 0 = some (asked 0 0 none []) ∧ readyOp live 0 0 1 = none
    ∧ readyOp (asks live (asked 2 0 none [])) 0 0 2 = some (asked 2 0 none [])
    ∧ readyOp { asks live { asked 2 0 none [] with cnt := 3 } with svc := (boxed (asks live { asked 2 0 none [] with cnt := 3 }) 2
        (reqBody 0 0 none [])).svc } 0 0 2 = none := by decide +kernel

/-- The session of slot 0 and its request, for an entry that is read. -/
def readS (op entry : Nat) (index : Option Nat) (data : Octets) : State := asks live (asked op entry index data)

/-- A subscription, an end of one, a read of the power state, a read of an unknown entry and one without the right. -/
theorem wit_ReadsFencesAndSubscriptionsAnswer :
    Shaped (readS 0 0o120000 none []) ∧ (readS 0 0o120000 none []).lasts 0 = true
    ∧ (∀ x ∈ [(0, 0o120000, ([] : Octets)), (0, 0o140000, []), (6, 0o140000, [0, 1]), (6, 0o140000, [0, 0])],
      let s := readS x.1 x.2.1 none x.2.2
      let sl := asked x.1 x.2.1 none x.2.2
      (s.ses 0).isSome = true ∧ readyOp s 0 0 (BitVec.ofNat 8 x.1) = some sl ∧ earlyStatus s sl.req = 0
        ∧ mayRead s (s.sesLevel 0) sl.req.entry.toNat = true)
    ∧ readyOp (readS 2 0 none []) 0 0 2 = some (asked 2 0 none [])
    ∧ readyOp (readS 0 0o777777 none []) 0 0 0 = some (asked 0 0o777777 none [])
    ∧ earlyStatus (readS 0 0o777777 none []) (asked 0 0o777777 none []).req ≠ 0
    ∧ readyOp (readS 0 0o140200 (some 3) []) 0 0 0 = some (asked 0 0o140200 (some 3) [])
    ∧ earlyStatus (readS 0 0o140200 (some 3) []) (asked 0 0o140200 (some 3) []).req = 0
    ∧ mayRead (readS 0 0o140200 (some 3) []) 3 0o140200 = false
    ∧ ((sesOf 3 none).subOf 0o140000 0).isNone = true ∧ (sesOf 3 none).subFree.isSome = true
    ∧ field ([0, 0] : Octets) 0 2 = 0
    ∧ (let u (n : Nat) : Sub := { num := BitVec.ofNat 8 n, entry := 0o140000, index := 0, period := 1, since := 0, lastVal := [] }
      ({ sesOf 3 none with subs := [u 63] } : Session).subOf 0o140000 0 = some (u 63)
        ∧ ({ sesOf 3 none with subs := (List.range 64).map u } : Session).subFree = none
        ∧ ({ sesOf 3 none with subs := (List.range 63).map u } : Session).subFree = some 63) := by decide +kernel

/-- Two sessions, of which the second holds the Helm; the first asks. -/
def helmS (lvl : BitVec 2) (op : Nat) (data : Octets) (h : HelmSt) : State :=
  { live with svc := { live.svc with
    ses := [some (sesOf lvl (some (asked op 0o140000 none data))), some (sesOf 1 none)] ++ List.replicate 6 none, helm := h } }

theorem wit_HelmMovesByRule :
    (∀ x ∈ [((1 : BitVec 2), 3, ([0] : Octets), ({} : HelmSt)), (1, 3, [0], { holder := some 0 }), (1, 3, [0], { holder := some 1 }),
        (1, 3, [1], { holder := some 1 }), (3, 3, [1], { holder := some 1 }), (3, 3, [1], { holder := some 1, seizer := some 2 }),
        (1, 4, [], { holder := some 0 }), (1, 4, [], { holder := some 1 }), (1, 5, [1], { holder := some 0 }),
        (1, 5, [0], { holder := some 0 }), (1, 5, [1], { holder := some 0, seizer := some 2 }), (0, 3, [0], {})],
      let s := helmS x.1 x.2.1 x.2.2.1 x.2.2.2
      let sl := asked x.2.1 0o140000 none x.2.2.1
      Shaped s ∧ s.lasts 0 = true ∧ readyOp s 0 0 (BitVec.ofNat 8 x.2.1) = some sl ∧ fixedForm s sl.req 0o140000 = 0
        ∧ (∀ z : Fin 8, s.svc.helm.seizer = some z → s.svc.helm.holder ≠ some z))
    ∧ (helmS 0 3 [0] {}).sesLevel 0 = 0 ∧ (helmS 1 3 [0] {}).sesLevel 0 ≠ 0 ∧ (helmS 3 3 [0] {}).sesLevel 0 = 3
    ∧ fixedForm (helmS 1 3 [0] {}) (asked 3 1 none [0]).req 0o140000 ≠ 0
    ∧ (helmS 1 3 [0] {}).sesLevel 1 ≠ 0 ∧ (helmS 1 3 [0] {}).sesLevel 2 = 0
    ∧ reached live.now 1024 = true ∧ reached live.now 1025 = false
    ∧ (let s := helmS 3 3 [1] { holder := some 1, seizer := some 0, noticeEnd := 1024, leaseEnd := 1024 }
      Shaped s ∧ s.lasts 0 = true ∧ reached s.now s.svc.helm.noticeEnd = true ∧ reached s.now s.svc.helm.leaseEnd = true
        ∧ s.slot 0 0 = some (asked 3 0o140000 none [1])) := by decide +kernel

/-! ## Writes of entries -/

/-- A moored module in mode live, with a data octet string of 65 octets for the moor entries. -/
def moorData (op : Byte) (g : GSet) : Octets := op :: gsetOct g

theorem wit_WritesRefusedByRightOrForm :
    (let sl := asked 1 0o010003 none [0, 1]
     let s := asks live sl
     s.lasts 0 = true ∧ readyOp s 0 0 1 = some sl ∧ earlyStatus s sl.req = 0 ∧ sl.req.entry.toNat = 0o010003)
    ∧ (let sl := asked 1 0o010003 none [0, 1]
       let s := { asks live sl with svc := { (asks live sl).svc with helm := {} } }
       s.lasts 0 = true ∧ readyOp s 0 0 1 = some sl ∧ rightCodes s 0 0o010003 sl.req.data ≠ [])
    ∧ (let sl := asked 1 0o777777 none [0, 1]
       readyOp (asks live sl) 0 0 1 = some sl ∧ earlyStatus (asks live sl) sl.req ≠ 0) := by decide +kernel

/-- A MOOR_COMMAND and an UNMOOR_REQUEST by groups and for the module, in mode live and before, on a Leader and a
Follower; of a group that its source still holds. -/
theorem wit_MoorAndUnmoorWrites :
    (∀ d ∈ [moorData 1 5, moorData 2 0, moorData 1 0], passes live 0o010001 none d = true)
    ∧ (∀ d ∈ [moorData 1 5, moorData 2 0, moorData 1 0], passes live 0o010002 none d = true)
    ∧ passes (up .load) 0o010001 none (moorData 1 5) = true
    ∧ passes { live with twin := { live.twin with role := .leader } } 0o010001 none (moorData 1 5) = true
    ∧ passes { live with twin := { live.twin with role := .follower } } 0o010002 none (moorData 1 5) = true
    ∧ passes { live with twin := { live.twin with role := .follower }, moor := { live.moor with faultG := 5 } } 0o010002 none
      (moorData 1 5) = true
    ∧ gsetOf ((moorData 1 5).drop 1) = 5 ∧ live.armedMode = true ∧ (up .load).armedMode = false
    ∧ (∀ e ∈ live.ev, e.parerr = false) ∧ live.evb.parerr = false ∧ live.moor.mSrc = [] ∧ live.man.stage ≠ 6 ∧ live.start.bench = false
    ∧ gHas (5 : GSet) 2 = true ∧ (live.moor.addG ||| live.moor.qAddG ||| live.moor.faultG) = 0 := by
  refine ⟨?_, ?_, ?_, ?_, ?_, ?_, ?_⟩ <;> decide +kernel

theorem wit_ModuleStateWrites :
    (∀ v ∈ [(0 : Byte), 1, 2],
      passes (up .live) 0o010003 none [0, v] = true ∧ passes live 0o010010 none [0, v] = true
        ∧ passes { live with core := { live.core with part := 2 } } 0o010010 none [0, v] = true)
    ∧ (∀ v ∈ [(0 : Byte), 1, 2], ∀ r ∈ [Role.solo, .follower],
      passes { up .live with twin := { live.twin with role := r } } 0o010004 none [0, v] = true) := by decide +kernel

theorem wit_TidePowerAndNodeWrites :
    (∀ v ∈ [(1 : Byte), 2, 4, 3], ∀ r ∈ [Role.solo, .leader, .follower],
      passes { up .live with twin := { live.twin with role := r } } 0o020000 none [0, v] = true)
    ∧ passes live 0o020002 none (List.replicate 16 0) = true
    ∧ (∀ v ∈ [(0 : Byte), 1, 2, 3], passes live 0o120001 none [0, v] = true ∧ passes live 0o120003 none [0, v] = true)
    ∧ ({ live with pws := { sa := 5, fokA := true } } : State).pws.stage .A = 5
    ∧ passes { live with pws := { sa := 5, fokA := true } } 0o120001 none [0, 1] = true
    ∧ passes (enrolS 0 13) 0o040020 (some 0) [0, 1] = true ∧ passes (enrolS 0 13) 0o040020 (some 0) [0, 0] = true := by
  decide +kernel

theorem wit_SettingsEventsAndSessionEntries :
    (∀ d ∈ [be 3 (Config.sevWord 0 false).toNat ++ be 3 (Config.sevWord 0 true).toNat, List.replicate 6 0xFF],
      passes (up .live) 0o030002 (some 0) d = true)
    ∧ (∀ d ∈ [be 3 262143, be 3 262144], passes (up .live) 0o030003 (some 0) d = true ∧ passes live 0o030001 (some 0) d = true)
    ∧ passes (up .live) 0o030003 (some 3) (be 3 1) = true
    ∧ passes live 0o050002 none [0, 60] = true ∧ passes live 0o050002 none [0, 61] = true
    ∧ passes live 0o140030 none (List.replicate 5 0) = true
    ∧ passes live 0o140200 (some 2) (List.replicate 32 7) = true
    ∧ passes live 0o160000 none (List.replicate 32 0) = true
    ∧ (∀ w ∈ [20, 21, 207, 208, 383, 384], passes (up .live) 0o076010 none (be 2 w ++ be 3 262143) = true)
    ∧ (let s := asks live (asked 1 0o140020 (some 0) [0, 1])
      Shaped s ∧ s.svc.helm.seizer ≠ some 0 ∧ ∀ n : Fin 8, sesSpent s n = false) ∧ passes live 0o140020 (some 0) [0, 1] = true
    ∧ passes live 0o140020 (some 1) [0, 1] = true ∧ passes live 0o140020 (some 1) [0, 2] = true ∧ live.runs .A = true := by
  decide +kernel

/-! ## Manifests -/

/-- The stage of a Manifest in a state, at an unmoored module. -/
def stageS (st : BitVec 4) : State := { live with man := { live.man with stage := st } }

/-- A write of 1,024 octets to the last section of the slot, with what the B-die's tap keeps of its frames since a tide. -/
def dataS (since : Tide) : State :=
  let d := List.replicate 1024 (7 : Byte)
  asks (stageS 1) { asked 1 0o100020 (some 47999) d with tap := some { since := since, octets := List.replicate 20 0 ++ d } }

set_option maxRecDepth 100000 in
theorem wit_StagesOpenAndStoreData :
    (∀ st ∈ [(0 : BitVec 4), 1, 2, 4, 5], ∀ v ∈ [(0 : Byte), 1, 2, 3], passes (stageS st) 0o100010 none [0, 0, v] = true)
    ∧ StoresWf (asks (stageS 1) (asked 1 0o100020 (some 47999) (List.replicate 1024 7)))
    ∧ passes (stageS 1) 0o100020 (some 47999) (List.replicate 1024 7) = true
    ∧ passes (stageS 2) 0o100020 (some 0) (List.replicate 1024 7) = true
    ∧ StoresWf (dataS 960) ∧ (dataS 960).lasts 0 = true ∧ (dataS 960).man.stage = 1 ∧ (dataS 960).sesPath 0 ≠ 3
    ∧ ((dataS 960).slot 0 0).any (fun sl => (dataS 960).mayWriteNow 0 0 0o100020 sl
        && decide ((sl.tap.map fun x => slice x.octets 20 1024) = some sl.req.data)) = true
    ∧ (dataS 960).runs .B = true ∧ tideGap (dataS 960).now 960 ≤ 64 ∧ 64 < tideGap (dataS 959).now 959
    ∧ (stageS 7).man.stage = 7 := by
  refine ⟨?_, ?_, ?_, ?_, ?_, ?_, ?_, ?_, ?_, ?_, ?_, ?_, ?_⟩ <;> decide +kernel

/-- A proof of the small net in a step, with signatures that wait and slices that follow, in the phase p with both channels done. -/
def proofT (nB : Net) (step : Nat) (sent : List (Nat × BitVec 32 × BitVec 32)) (rest : List (List Nat)) : ProofSt :=
  { proofStart netT nB [[0]] with step := step, sent := sent, rest := rest }

def proofS (p : BitVec 3) (done : Bool) (q : ProofSt) : State :=
  let s := livePh p
  { s with tide := { s.tide with aDone := done, bDone := done }, man := { s.man with stage := 3, proof := some q } }

theorem wit_StagesAreVerifiedAndProved :
    Shaped (stageS 2) ∧ stageReasons (stageS 2) (checkSlot (stageS 2).norA (inactiveSlot (stageS 2))) = [0o003]
    ∧ (stageS 3).man.proof.isNone = true
    ∧ (∀ nB ∈ [netT, Net.empty], ∀ step ∈ [0, 4095, 4096],
      let s := proofS 1 true (proofT nB step [] [])
      Shaped s ∧ s.man.stage = 3 ∧ s.man.proof = some (proofT nB step [] []) ∧ s.runs .A = true ∧ s.runs .B = true
        ∧ s.tide.ph = 1 ∧ s.tide.aDone = true ∧ s.tide.bDone = true)
    ∧ structuralOk (batchesOf netT) netT = true ∧ structuralOk (batchesOf netT) Net.empty = false
    ∧ (proofS 1 false (proofT netT 0 [] [])).a.armed = true ∧ (proofS 2 true (proofT netT 0 [] [])).tide.ph ≠ 1
    ∧ proofCompare (proofT netT 1 [(0, 1, 1)] []) = .more (proofT netT 1 [] [])
    ∧ proofCompare (proofT netT 4096 [(4095, 1, 1)] []) = .passed
    ∧ (∃ q, proofCompare (proofT netT 4096 [] [[0]]) = .more q)
    ∧ proofCompare (proofT netT 4096 [(4094, 1, 1), (4095, 1, 2)] []) = .failed (proofSubject .stimulus 0 4095) := by
  refine ⟨?_, ?_, ?_, ?_, ?_, ?_, ?_, ?_, ?_, ?_, ⟨_, rfl⟩, ?_⟩ <;> decide +kernel

/-- A net as a slot that passes every check would give it: section 2 of a whole slot has 786,432 words, so that these clauses
have their witness in what the dies find there, and not in the octets of a slot. -/
def checkT : Check :=
  { net := some { netT with head := [0, 0, 2], sec8 := List.replicate 49 0 }, digest := List.replicate 32 9, reasons := [],
    corrupt := false }

/-- The module holds that net already. -/
def heldS : State := { stageS 2 with a := { live.a with net := checkT.net } }

theorem wit_StagesAreVerifiedAndProved_passes :
    Shaped heldS ∧ heldS.man.stage = 2 ∧ stageReasons heldS checkT = [] ∧ stageReasons { up .load with man := heldS.man } checkT = []
    ∧ loadReason { slot := some 0, seq := 1, chk := checkT } { slot := some 0, seq := 1, chk := checkT } = 0
    ∧ ({ slot := some 0, seq := 1, chk := checkT } : Load).passed.isSome = true
    ∧ loadReason { slot := some 0, seq := 1, chk := checkT } { slot := some 0, seq := 2, chk := checkT } = 0o017 := by
  decide +kernel

/-- A staged Manifest, ready, whose predecessor is the active one; it touches a moored or no group, or changes the network. -/
def readyS (touch : GSet) (netchg : Bool) : State :=
  { live with man := { live.man with
    stage := 4, stageDig := List.replicate 32 7, touch := touch, netchg := netchg,
    staged := some { netT with sec8 := List.replicate 16 0 } } }

/-- A commit under way since tide 961, as a unit of some role, with its records in both stores. -/
def commitS (r : Role) : State :=
  let dig := List.replicate 32 (7 : Byte)
  { live with
    man := { live.man with stage := 6, commitAt := 961, commitSeq := 5, commitTide := 1030, stageDig := dig }
    norA := writeCommits [] (inactiveSlot live) 5 1030 dig, norB := writeCommits [] (inactiveSlot live) 5 1030 dig
    twin := { live.twin with role := r, cop := 1 } }

/-- The records of a commit are in a store. -/
def storedIn (nor : List Host.Cell) (s : State) : Bool :=
  let record := codeOctets (commitWords s.man.commitSeq.toNat s.man.commitTide s.man.stageDig)
  (commitOffsets (inactiveSlot s)).all fun a => decide (norOctets nor a record.length = record)

theorem wit_CommitsConfirmOrFail :
    passes (readyS 0 false) 0o100011 none (List.replicate 32 7) = true
    ∧ passes (readyS 1 true) 0o100011 none (List.replicate 32 7) = true
    ∧ commitCodes (readyS 0 false) (List.replicate 32 7) = [] ∧ commitCodes (readyS 1 true) (List.replicate 32 7) = [7, 6]
    ∧ commitCodes (readyS 0 false) (List.replicate 32 1) = [8]
    ∧ commitCodes (readyS 0 true) (List.replicate 32 7) = [6]
    ∧ (∀ r ∈ [Role.solo, .leader, .follower], Shaped (commitS r) ∧ (commitS r).man.stage = 6
      ∧ (commitS r).man.confirmed = false ∧ (commitS r).man.forceAt = none ∧ (commitS r).twin.role = r
      ∧ reached (commitS r).now (tideAdd (commitS r).man.commitAt 64) = false)
    ∧ storedIn (commitS .solo).norA (commitS .solo) = true ∧ storedIn (commitS .solo).norB (commitS .solo) = true
    ∧ storedIn [] (commitS .solo) = false
    ∧ (let s : State := { commitS .leader with man := { (commitS .leader).man with commitAt := 960 } }
      Shaped s ∧ reached s.now (tideAdd s.man.commitAt 64) = true ∧ s.man.confirmed = false)
    ∧ (let s : State := { commitS .leader with twin := { (commitS .leader).twin with cconf := true } }
      Shaped s ∧ s.twin.cop = 1 ∧ s.twin.cconf = true)
    ∧ (let s : State := { commitS .solo with
        man := { (commitS .solo).man with forceAt := some 1025, rebuildSince := some 1000, touch := 1 }
        tide := { live.tide with aDone := true } }
      Shaped s ∧ s.man.forceAt = some (tideAdd s.now 1) ∧ s.tide.aDone = true ∧ s.man.swapDone = false
        ∧ s.man.touch ≠ 0 ∧ s.man.rebuildSince ≠ none ∧ s.eva.swap = false ∧ s.a.armed = true) := by
  refine ⟨?_, ?_, ?_, ?_, ?_, ?_, ?_, ?_, ?_, ?_, ?_, ?_, ?_⟩ <;> decide +kernel

/-- Translate and prove in tide 1,024: translated or not, the opcode vectors run or not, a proof in hand, with a result. -/
def proveS (translated proofFrom : Tide) (q : Option ProofSt) (r : Option (BitVec 32)) : State :=
  { live with mode := .translate, start := { live.start with tp := some {
    since := 0, translated := translated, proofFrom := proofFrom, proof := q, result := r } } }

/-- With empty stores the load is refused; a background check finds a slot that no longer reads. -/
theorem wit_ManifestsLoadAndProve :
    Shaped (up .load) ∧ StoresWf (up .load) ∧ (up .load).mode = .load ∧ loadReason (loadDie []) (loadDie []) ≠ 0
    ∧ (up .load).start.modeNext = none
    ∧ (∀ s ∈ [proveS 1025 1025 none none, proveS 1024 1025 none none, proveS 1024 1024 none none,
        proveS 1024 1024 (some (proofT netT 4095 [(4094, 1, 1)] [])) none, proveS 1024 1024 none (some 0),
        proveS 1024 1024 none (some 7)],
      Shaped s ∧ StoresWf s ∧ s.mode = .translate ∧ s.start.modeNext = none ∧ s.start.tp.isSome = true ∧ s.runs .B = true)
    ∧ reached live.now 1024 = true ∧ reached live.now 1025 = false ∧ proofSubject .vectors 0 0 ≠ 0
    ∧ (proveS 1024 1024 none none).eva.batches = []
    ∧ (backgroundFinding [] 0 (List.replicate 32 7)).1 ≠ 0
    ∧ (let s : State := { live with man := { live.man with slot := 0, active := List.replicate 32 7 } }
      Shaped s ∧ StoresWf s ∧ s.runs .A = true ∧ s.man.active ≠ List.replicate 32 0 ∧ s.man.slot.toNat ≤ 1) := by
  decide +kernel

/-! ## Accesses, posts, fences -/

/-- The shared SRAM, NW_VAL and the SVC registers for reads and writes, the point table for reads. -/
def partS : State :=
  { live with core := { live.core with
    fbase := [0o170000, 0o770270, 0, 0o772000, 0, 0, 0, 0], flim := [0o177777, 0o770277, 0o7777, 0o772077, 0, 0, 0, 0],
    frgt := [0o13, 0o13, 0o11, 0o13, 0, 0, 0, 0] } }

theorem wit_PartitionAccessesAreJudged :
    allowed partS .write 0o17000000 = true ∧ allowed partS .write 0o17777777 = true ∧ allowed partS .write 0o16777777 = false
    ∧ allowed partS .write 0o20000000 = false ∧ allowed partS .read 0o777777 = true ∧ allowed partS .write 0 = false
    ∧ partS.runs .A = true ∧ partS.core.part = 0 ∧ partS.core.fenceReg = none ∧ State.reset.runs .A = false
    ∧ live.core.part = 0 ∧ live.core.fenceReg = none ∧ allowed live .write 0o77200002 = false
    ∧ allowed live .write 0o77027001 = false ∧ allowed partS .write 0o77200002 = true := by decide +kernel

/-- A net of an AND and a TON, with its translated form in the instance area: records, then the TON's two state copies. -/
def areaS : State :=
  let n : Net := { netT with insts := netT.insts ++ [{ op := 0o030, ins := [0, 1], outs := [3], pars := [] }] }
  { live with
    a := { live.a with net := some n, inst := [.none, .none], shadow := [.none, .none] }, eva := { batches := batchesOf n } }

/-- The ends of the ranges: committed words, records, state copies, SRAM, provisional words, declarations, nothing; a row with a
flipped cell and an uncorrectable one. -/
theorem wit_MemoryWritesReadBack :
    Shaped partS ∧ StoresWf partS ∧ ringRuns partS .exec = true ∧ ringMay partS .exec .write 0 = true
    ∧ ringRuns partS .part = true ∧ ringMay partS .part .write 0o17000000 = true ∧ ringMay partS .exec .read 0o17000000 = true
    ∧ (∀ a ∈ [0o01000000, 0o14777777, 0o16000000, 0o17777777, 0o23000000, 0o23777777, 0o40000000, 0o40777777],
      isRam a = true ∧ areaWord partS a = none ∧ ¬ (0o20000000 ≤ a ∧ a ≤ 0o22777777))
    ∧ Shaped areaS ∧ StoresWf areaS ∧ areaWord areaS 0o01000000 = some (.record 0 0)
    ∧ areaWord areaS 0o01000007 = some (.record 1 3) ∧ areaWord areaS 0o01000010 = some (.state 1 true 0)
    ∧ areaWord areaS 0o01000011 = some (.state 1 false 0) ∧ areaWord areaS 0o01000012 = none
    ∧ qOf 0o177777 ≠ 1 ∧ qOf 0o200000 = 1
    ∧ (∀ a ∈ [0o24000000, 0o37777777, 0o41000000, 0o76777777, 0o77220000, 0o77377777, 0o77410000, 0o77777777],
      isRam a = false ∧ (memGet partS a).isNone = true)
    ∧ memGet partS 0o17000000 = some 0 ∧ (partS.rowFlip .A 0o17000000 (1 <<< 23)).rowMask .A 0o17000000 = 1 <<< 23
    ∧ (partS.rowFlip .A 0o17000000 3).rowMask .A 0o17000000 ≠ 0
    ∧ (partS.rowFlip .A 0o17000000 3).rowUse .A 0o17000000 0 = none
    ∧ Shaped (partS.rowFlip .A 0o17000000 3) ∧ StoresWf (partS.rowFlip .A 0o17000000 3) := by decide +kernel

/-- A net with a point of class N that the partition may source, one with a driver's class and one undeclared. -/
def nwS (p : BitVec 3) (idx : Word) : State :=
  { partS with
    a := { partS.a with net := some { netT with decls := [(0, ⟨0o340000, 0, 0⟩), (1, ⟨0o040000, 0, 0⟩)] } }
    tide := { partS.tide with ph := p }, eva := { nwIdx := idx } }

theorem wit_RegisterWritesTakeEffect :
    (∀ ring ∈ [Ring.exec, .part], Shaped (nwS 0 0) ∧ ringRuns (nwS 0 0) ring = true
      ∧ ringMay (nwS 0 0) ring .write 0o77027001 = true)
    ∧ (nwS 0 0).netA.declared 0 = true ∧ (nwS 0 0).netA.partSourced 0 = true ∧ (nwS 0 0).netA.partSourced 1 = false
    ∧ (nwS 0 0).netA.declared 1 = true ∧ (nwS 0 0).netA.declared 2 = false ∧ (nwS 0 0).tide.ph = 0 ∧ (nwS 1 0).tide.ph ≠ 0
    ∧ (nwS 0 0).runs .A = true ∧ ringRuns State.reset .exec = false ∧ ringRuns State.reset .part = false
    ∧ resetS.unitDown (.fpe 2) = true ∧ resetS.unitDown (.fpe 1) = false := by decide +kernel

/-- A receive ring of 16 words at the start of the shared SRAM, and a message of 24 octets to post from word 64. -/
def svcS (head : BitVec 17) (len : BitVec 11) : State :=
  { partS with svc := { live.svc with rxsize := 16, rxhead := head, txoff := 64, txlen := len, ringIn := [(true, List.replicate 30 0)] } }

/-- A request that the partition posted, with its tide. -/
def postedT (ift : Option Tide) (since : Tide) : Posted :=
  { path := false, ses := 0, rid := 0, rn := 1, since := since, ift := ift, gaveUp := false }

theorem wit_PostsFencesAndSettingsStore :
    StoresWf (svcS 0 24) ∧ allowed (svcS 0 24) .write 0o77200002 = true ∧ live.svc.ringIn = []
    ∧ (svcS 0 24).svc.ringIn = [] ++ (true, List.replicate 30 0) :: [] ∧ ringRuns (svcS 0 24) .part = true ∧ (svcS 0 24).unitDown .svc = false
    ∧ (postedMessage (svcS 0 24)).isSome = true ∧ (postedMessage (svcS 0 23)).isNone = true
    ∧ (postedMessage (svcS 0 1440)).isSome = true ∧ (postedMessage (svcS 0 1441)).isNone = true
    ∧ (svcS 0 24).svc.rxsize ≠ 0 ∧ (svcS 0 24).svc.rxsize.toNat ≤ ringUsed (svcS 0 24).svc + (ringWords (List.replicate 30 0)).length
    ∧ ¬ (svcS 15 24).svc.rxsize.toNat ≤ ringUsed (svcS 0 24).svc + (ringWords (List.replicate 28 0)).length
    ∧ resetS.unitDown .svc = true
    ∧ (let s : State := { live with core := { live.core with fenceReg := some 255 } }
      StoresWf s ∧ s.core.fenceReg = some 255 ∧ reached s.now 1024 = true ∧ reached s.now 1025 = false)
    ∧ reached (9216 : Tide) (tideAdd (postedT none 1024).since 8192) = true
    ∧ (postedT (some 1024) 0).ift = some 1024 ∧ (postedT none 0).gaveUp = false
    ∧ (let s : State := { live with dict := { live.dict with keptSince := some 1000 } }
      StoresWf s ∧ s.dict.keptSince ≠ none ∧ s.runs .A = true) := by decide +kernel

/-! ## Fuses -/

/-- The fuses as delivered, with a module that the start-up mooring holds; a burn that runs for the registers. -/
def burnS (via : FuseVia) : State :=
  { up .live with fus := { (up .live).fus with
    busy := true, burn := some { die := .A, op := 1, words := [(400, 1)], via := via } } }

/-- The data of FUSE_PROGRAM: operation, die, region, word, bit, value. -/
def fuseData (op r j b : Nat) (v : Nat) : Octets := [BitVec.ofNat 8 op, 0, BitVec.ofNat 8 r, BitVec.ofNat 8 j, BitVec.ofNat 8 b] ++ be 3 v

theorem wit_FuseCommandsReadOrBurn :
    (up .live).fus.busy = false ∧ moduleMoored (up .live) = true ∧ moduleMoored live = false
    ∧ (burnPlan (up .live).fus.a.present 1 25 0 0 1).toOption = some [(400, 1)]
    ∧ (burnPlan (up .live).fus.a.present 1 0 0 0 1).toOption = none ∧ State.reset.runs .A = false
    ∧ (∀ op ∈ [1, 2, 3, 4, 5, 6, 7], passes (up .live) 0o076020 none (fuseData op 25 0 0 1) = true
      ∧ programForm (fuseData op 25 0 0 1) = true)
    ∧ passes (up .live) 0o076020 none (fuseData 1 25 0 18 1) = true ∧ programForm (fuseData 8 25 0 0 1) = false
    ∧ (fuseCommand (up .live) 1 .A 25 0 0 1 .regs).fus.busy = true ∧ (fuseCommand (up .live) 7 .A 25 0 0 1 .regs).fus.busy = false
    ∧ (fuseCommand (up .live) 1 .A 25 0 0 1 (.entry 0 0)).fus.busy = true ∧ (burnS .regs).fus.busy = true := by
  refine ⟨?_, ?_, ?_, ?_, ?_, ?_, ?_, ?_, ?_, ?_, ?_, ?_, ?_⟩ <;> decide +kernel

/-- The same burn after a reset of its die cut it off. -/
def burnCutS : State :=
  { burnS .regs with fus := { (burnS .regs).fus with burn := (burnS .regs).fus.burn.map fun x => { x with cut := true } } }

/-- A state Running or later, in the guard phase. -/
def guardS (done : Option Tide) : State := { livePh 5 with fus := { live.fus with ran := true, doneAt := done } }

theorem wit_FuseBurnsEndAndBitsAreResensed :
    (∀ s ∈ [burnS .regs, burnCutS, guardS none], Shaped s ∧ cellWf 0 s.fus.a.lo = true ∧ cellWf 0 s.fus.a.hi = true
      ∧ cellWf 0 s.fus.a.weak = true ∧ cellWf 0 s.fus.b.lo = true ∧ cellWf 0 s.fus.b.hi = true ∧ cellWf 0 s.fus.b.weak = true)
    ∧ (burnS .regs).fus.burn.any (fun x => !x.cut) = true ∧ burnCutS.fus.burn.any (fun x => x.cut) = true
    ∧ (guardS none).fus.burn = none
    ∧ (let sl := { asked 1 0o076020 none (fuseData 1 25 0 0 1) with st := .burning 1000 }
      let s := asks (burnS (.entry 0 0)) sl
      Shaped s ∧ s.slot 0 0 = some sl ∧ s.lasts 0 = true ∧ s.fus.burn.isSome = true)
    ∧ (guardS (some 1023)).fus.ran = true ∧ (guardS none).tide.ph = 5 ∧ (guardS (some 1023)).fus.doneAt ≠ some (guardS none).now
    ∧ (guardS none).pws.hold = false ∧ (livePh 4).tide.ph ≠ 5 ∧ live.fus.ran = false
    ∧ (guardS (some 1024)).fus.doneAt = some (guardS none).now
    ∧ (∀ x ∈ [((0 : Nat), (1025 : Tide)), (0, 1024), (8, 1025), (504, 0)],
      (decide (x.1 = 0) && later x.2 (1024 : Tide)) = decide (x = (0, 1025)))
    ∧ (∀ v ∈ [(0 : Byte), 1], passes (up .live) 0o076011 none [0, v] = true) := by
  refine ⟨?_, ?_, ?_, ?_, ?_, ?_, ?_, ?_, ?_, ?_, ?_, ?_, ?_, ?_⟩ <;> decide +kernel

/-! ## Local inputs and outputs -/

/-- Input 0 of feed 0 and input 1 of feed 1, both used; a pulse on feed 0 is under way. -/
def lioS : State :=
  { live with
    a := { live.a with net := some { netT with sec3 := [0, 0o400000, 1, 0o400001] } }
    lio := { live.lio with pulse := some 0, inA := 3, inB := 3, pulseA := 2, pulseB := 2, fltNext := 1 } }

/-- Output 5 is under a test. -/
def testS (bright passed failed : Bool) : State :=
  { live with lio := { live.lio with tests := [{ q := 5, bright := bright, sw := .A, passed := passed, failed := failed }] } }

theorem wit_LocalIoChecksAndTests :
    Shaped lioS ∧ lioS.lio.pulse = some 0 ∧ lioS.lio.feedPass.length = 8 ∧ live.lio.pulse.isNone = true ∧ lioS.runs .A = true
    ∧ (lioS.netA.inPoint 0).isSome = true ∧ lioS.netA.inFeed 0 = 0 ∧ lioS.netA.inFeed 1 = 1
    ∧ majority [0, 0, 3, 3, 3] = (3 : BitVec 32) ∧ majority [3, 3, 0, 0, 0] = (0 : BitVec 32)
    ∧ (let s : State := { lioS with lio := { lioS.lio with feedPass := 1 :: List.replicate 7 0 } }
      Shaped s ∧ s.lio.feedPass.getD 0 0 = 1 ∧ s.lio.feedPass.length = 8)
    ∧ (let s : State := { live with lio := { live.lio with linkLost := 2, onAgainst := List.replicate 16 4 } }
      Shaped s ∧ s.lio.linkLost = 2 ∧ s.runs .A = true ∧ s.runs .B = true ∧ s.lio.onAgainst.getD 15 0 ≠ 5)
    ∧ live.lio.linkLost ≠ 2 ∧ (live.lio.test 5).isNone = true
    ∧ (∀ x ∈ [(false, false, false), (true, true, false), (false, false, true)],
      Shaped (testS x.1 x.2.1 x.2.2)
        ∧ (testS x.1 x.2.1 x.2.2).lio.test 5 = some { q := 5, bright := x.1, sw := .A, passed := x.2.1, failed := x.2.2 })
    ∧ live.a.mooring = false ∧ live.lio.qovl.getLsbD 5 = false ∧ (up .live).a.mooring = true ∧ live.lio.tEndTide.isNone = true
    ∧ (let s : State := { testS false false false with lio := { (testS false false false).lio with qovl := 32 } }
      Shaped s ∧ s.lio.qovl.getLsbD 5 = true ∧ (s.lio.test 5).isSome = true) := by
  refine ⟨?_, ?_, ?_, ?_, ?_, ?_, ?_, ?_, ?_, ?_, ?_, ?_, ?_, ?_, ?_, ?_, ?_⟩ <;> decide +kernel

/-! ## Power, start-up, recorder -/

/-- The stages in two states, the feeds in range. -/
def pwsS (a b : BitVec 3) : State := { live with pws := { live.pws with sa := a, sb := b, fokA := true, fokB := true } }

theorem wit_PowerStagesChangeAndAreTested :
    (∀ a ∈ [(0 : BitVec 3), 1, 2, 3, 4, 5], Shaped (pwsS a 3) ∧ (pwsS a 3).pws.stage .A = a.toNat ∧ (pwsS a 3).pws.feedOk .A = true)
    ∧ (pwsS 4 3).pws.stage (Die.other .A) = 3 ∧ (pwsS 4 5).pws.stage .B ≠ 3 ∧ (pwsS 4 5).pws.stage .B ≠ 4
    ∧ (pwsS 4 5).pws.working .A = true ∧ (pwsS 4 5).pws.working .B = false ∧ (pwsS 4 5).pws.hold = false
    ∧ live.pws.feedOk .A = false ∧ (pwsS 3 4).pws.stbt = false ∧ (pwsS 3 4).pws.takeoverAt.isNone = true
    ∧ (let s : State := { pwsS 3 4 with pws := { (pwsS 3 4).pws with stbt := true, takeoverAt := some 1000 } }
      Shaped s ∧ s.pws.stbt = true ∧ later (tideAdd 1000 (s.tides 60000)) s.now = true)
    ∧ (∀ o ∈ [24, 25],
      let s : State := { live with pws := { live.pws with sa := 5, outA := some (BitVec.ofNat 36 o) } }
      Shaped s ∧ s.pws.feedOk .A = false ∧ s.pws.stage .A = 5
        ∧ reached s.now (tideAdd (BitVec.ofNat 36 o) (s.tides 2000)) = decide (o = 24)) := by decide +kernel

theorem wit_HoldAndReleaseOfTheDies :
    (let p : PwsSt := { (pwsS 4 0).pws with hold := true }
    p.hold = true ∧ p.seqEnded = false ∧ p.stage .A = 4 ∧ p.rstHeld = false
      ∧ ({ p with seqEnded := true } : PwsSt).rstHeld = false)
    ∧ (99 : Nat) < 100 ∧ (10000 : Nat) < 10001 ∧ (100 : Nat) ≤ 10000 ∧ State.reset.mode = .off
    ∧ State.reset.pws.released = false ∧ State.reset.pws.hold = false ∧ State.reset.pws.rstHeld = false
    ∧ ({ live.pws with rstClosed := true } : PwsSt).rstPend = false
    ∧ ({ live.pws with rstClosed := true, rstPend := true } : PwsSt).rstHeld = false
    ∧ ({ live.pws with rstClosed := true, rstPend := true, rstHeld := true } : PwsSt).longNow = false := by decide +kernel

/-- As sensing reads the A-die's fuses as delivered, every identity word resolves. -/
theorem delivered_identity : (FuseDie.delivered .A).sense.latched.identity .A = true := by
  have h : (FuseDie.delivered .A).sense.latched = ⟨Config.fuseFactory true, Config.fuseFactory true, []⟩ := by decide +kernel
  rw [h]
  decide +kernel

/-- Self-test with the fuses of both dies sensed as delivered, so that the boot images of the erased devices are the right ones. -/
def testedS : State :=
  let sensed (d : Die) : FuseDie := { FuseDie.delivered d with
    shLo := (FuseDie.delivered d).lo, shHi := (FuseDie.delivered d).hi, sensed := true }
  { up .selfTest with fus := { (up .selfTest).fus with a := sensed .A, b := sensed .B } }

theorem wit_StartUpBegins_passes : bootOk testedS .A = true ∧ bootOk testedS .B = true := by
  constructor <;> decide +kernel

/-- The A-die runs with its fuses as delivered, the B-die is held; a die whose fuses are blank resolves no identity. -/
theorem wit_StartUpBegins :
    (let s : State := { up .fuseRead with b := {} }
    Shaped s ∧ s.mode = .fuseRead ∧ s.runs .A = true ∧ s.runs .B = false ∧ s.fus.a = FuseDie.delivered .A)
    ∧ live.mode ≠ .fuseRead ∧ ({} : FuseDie).sense.latched.identity .A = false
    ∧ Shaped testedS ∧ testedS.mode = .selfTest ∧ testedS.start.modeNext = none ∧ testedS.runs .A = true
    ∧ testedS.runs .B = true ∧ testedS.pws.railA = false ∧ testedS.pws.railB = false ∧ testedS.bells.bcon = false
    ∧ (up .selfTest).runs .A = true := by decide +kernel

/-- A queue of 254 single records, one more than a page takes; a flush of one record; page 5 in order after page 4. -/
def recS (n : Nat) (flush : Bool) : State :=
  { live with rcd := { live.rcd with queue := List.replicate n [List.replicate 16 1], flush := flush } }

theorem wit_RecorderKeepsRecords :
    Shaped (recS 254 false) ∧ cellWf blankPage (recS 254 false).rcd.pages = true ∧ (recS 254 false).runs .A = true
    ∧ pageFull (recS 253 false).rcd = true ∧ pageFull (recS 252 false).rcd = false ∧ (recS 1 true).rcd.flush = true
    ∧ (recS 1 true).rcd.queue ≠ [] ∧ 65536 ≤ tideGap 65536 live.rcd.lastProg ∧ tideGap live.now live.rcd.lastProg < 65536
    ∧ live.rcd.checkAt = none ∧ live.rcd.pages = []
    ∧ (∀ n ∈ [1008, 1009],
      tideGap live.now (BitVec.ofNat 36 n) = 1024 - n ∧ (16 ≤ tideGap live.now (BitVec.ofNat 36 n) ↔ n = 1008))
    ∧ (let s : State := { livePh 3 with rcd := { live.rcd with
        pages := [(4, [1]), (5, [2])], checkPos := 5, checkAt := some 1008, erases := [(9, 3)] } }
      Shaped s ∧ s.runs .A = true ∧ s.tide.ph = 3 ∧ (9 : Nat) < s.rcd.usable ∧ cellGet blankPage s.rcd.pages 5 ≠ blankPage ∧ cellGet blankPage s.rcd.pages 4 ≠ blankPage ∧ (5 : Nat) ≠ s.rcd.oldPos
        ∧ sha256 (([1] : Octets).drop 4064 ++ ([2] : Octets).take 4064) ≠ ([2] : Octets).drop 4064) := by
  refine ⟨?_, ?_, ?_, ?_, ?_, ?_, ?_, ?_, ?_, ?_, ?_, ?_, ?_⟩ <;> decide +kernel

/-- The last fill at which a POINT record is kept, and the first at which it is dropped. -/
theorem wit_RecorderKeepsRecords_drops : ({ queue := [List.replicate 7936 []] } : RecSt).qfill = 8192 - 256
    ∧ ({ queue := [List.replicate 7935 []] } : RecSt).qfill < 8192 - 256 := by
  unfold RecSt.qfill
  simp only [List.foldl_cons, List.foldl_nil, List.length_replicate]
  decide

/-! ## The tide: Gangway, comparison, intake, fence, emission -/

/-- Frames wait on the Gangway for both dies. -/
def gwS (p : BitVec 3) (forA forB : List GwFrame) : State := { livePh p with ba := forA, ab := forB }

/-- An entry of a close list for node 0 with status word 0o10000. -/
def entT : CloseEnt := { node := 0, copy := 1, port := 0, lane := .A, payload := [0x10, 0] }

theorem wit_GangwayHeartbeatsAndFailedFrames :
    Shaped (gwS 0 [] []) ∧ live.runs .B = true ∧ live.runs .A = true ∧ live.tide.bNum = 0 ∧ State.reset.runs .B = false
    ∧ (∀ n ∈ [0, 1, 2],
      (gwS 0 [] [.aVerdict 1 true, .heartbeat (BitVec.ofNat 36 n) 3]).ab.find? GwFrame.isHeartbeat
        = some (.heartbeat (BitVec.ofNat 36 n) 3))
    ∧ takeFrame ((gwS 0 [.landing entT, .heartbeat 7 9] []).gwFor .A) GwFrame.isHeartbeat = some (.heartbeat 7 9, [.landing entT])
    ∧ live.a.finalCrc = 0 ∧ (5000 : Int).natAbs ≤ 5000 ∧ 5000 < (-5001 : Int).natAbs
    ∧ (let s : State := { live with tide := { live.tide with closed := true }, intake := { bClosed := true } }
      Shaped s ∧ s.a.armed = true ∧ s.tide.closed = true ∧ s.b.armed = true ∧ s.intake.bClosed = true)
    ∧ 2 < live.tide.budget.length := by
  refine ⟨?_, ?_, ?_, ?_, ?_, ?_, ?_, ?_, ?_, ?_, ?_, ?_⟩ <;> decide +kernel

/-- In the comparison phase, with both channels done or not, and a signature frame on its way. -/
theorem wit_SignaturesAndVerdictsAreFormed :
    Shaped (livePh 1) ∧ (livePh 1).tide.running = true ∧ (livePh 1).tide.ph.toNat < 2 ∧ (livePh 1).tide.aDone = false
    ∧ (livePh 1).a.armed = true ∧ (livePh 1).runs .A = true ∧ (up .load).a.armed = false ∧ (up .load).tide.running = true
    ∧ takeFrame ((gwS 2 [.sigs 3 [1]] []).gwFor .A) GwFrame.isSig = some (.sigs 3 [1], [])
    ∧ takeFrame ((gwS 2 [] [.digest [1]]).gwFor .B) GwFrame.isSig = some (.digest [1], [])
    ∧ Shaped (livePh 2) ∧ (livePh 2).tide.ph = 2 ∧ (livePh 2).moor.exchanged = false ∧ (livePh 2).compares .A = true
    ∧ (up .load).compares .A = false
    ∧ (let s : State := { livePh 2 with moor := { live.moor with exchanged := true } }
      Shaped s ∧ s.moor.exchanged = true)
    ∧ ((List.range 15).map (BitVec.ofNat 9)).length ≤ 15 := by decide +kernel

/-- A die in the comparison phase without a final set, with the other's verdict and moor-set frame waiting. -/
def finalS (own : List (BitVec 9)) : State :=
  { gwS 2 [.verdict (verdictOctets false [3]), .degrade 8] [] with
    a := { live.a with verdict := own, otherVerdict := some (false, []), otherDegrade := some 0 },
    moor := { live.moor with entries := [(3, 1000), (3, 1001)] } }

theorem wit_FinalMoorSetsAreFormed :
    Shaped (finalS []) ∧ (finalS []).runs .A = true ∧ (finalS []).a.formed = false ∧ (finalS []).a.armed = true
    ∧ (finalS []).tide.running = true ∧ (finalS []).tide.ph = 2 ∧ State.reset.runs .A = false
    ∧ ((finalS []).gwFor .A).find? GwFrame.isVerdict = some (.verdict (verdictOctets false [3]))
    ∧ ((finalS []).gwFor .A).find? GwFrame.isDegrade = some (.degrade 8)
    ∧ gHas (verdictSet (finalS [3]).a.verdict) 3 = true ∧ (finalS [3]).groupMoored 3 = false
    ∧ 3 ≤ countIf ((3, (finalS [3]).now) :: (finalS [3]).moor.entries) (fun e => e.1 = 3)
    ∧ (let s : State := { finalS [] with a := { (finalS []).a with verdictMoor := true, found := 1, degrade := 2 } }
      Shaped s ∧ s.a.verdictMoor = true ∧ s.a.formed = false)
    ∧ 15 < gCount (verdictSet ((List.range 16).map fun g => BitVec.ofNat 9 g))
    ∧ ¬ 15 < gCount (verdictSet ((List.range 15).map fun g => BitVec.ofNat 9 g))
    ∧ (live.a.otherVerdict.isNone = true) ∧ (live.a.verdict = []) := by
  refine ⟨?_, ?_, ?_, ?_, ?_, ?_, ?_, ?_, ?_, ?_, ?_, ?_, ?_, ?_, ?_, ?_, ?_⟩ <;> decide +kernel

/-- Node 0 of a net with one node and a twin, enrolled on port 0, whose lane A is up. -/
def nodeS (p : BitVec 3) : State :=
  let n : Net := { netT with head := List.replicate 10 0 ++ [1, 1] }
  { livePh p with
    a := { live.a with net := some n }, b := { live.b with net := some n }, nodes := [{ enrolled := true }]
    ports := { presA := true, upA := true } :: List.replicate 3 {} }

/-- A telegram of this kind and tide from node 0 to zone 0. -/
def copyT (kind : BitVec 4) (t : Tide) (payload : Octets) : Lst :=
  { lstT with kind := kind, src := 0, dst := 0, tide := t, subseq := 0, payload := payload }

/-- A copy that passed and waits at the B-die for its A-verdict, and what is landed already. -/
def landS (p : BitVec 3) (f : Lst) (used : List CloseEnt) (closed : Bool) : State :=
  { nodeS p with
    ab := [.aVerdict 5 true]
    intake := { bCopies := [{ copy := 5, port := 0, lane := .A, f := f }], closeB := used, bClosed := closed } }

set_option maxRecDepth 100000 in
/-- Copies with good signatures, a bad A-signature and a frame of another network; INPUT copies of the tide, the next, the
one before and another, first, again and late; a SERVICE copy. -/
theorem wit_CopiesAreCheckedAndLand :
    Shaped (nodeS 0) ∧ receives (nodeS 0) = true ∧ receives State.reset = false ∧ ((nodeS 0).port 0).up .A = true
    ∧ ((nodeS 0).port 3).up .B = false ∧ (nodeS 0).runs .A = true ∧ (nodeS 0).runs .B = true
    ∧ (let f := lstSign (nodeS 0).salt (copyT 0 1024 [0, 0, 0])
      judgeCopy (nodeS 0) .A 0 .A (wireT f) = .good f ∧ judgeCopy (nodeS 0) .B 0 .A (wireT f) = .good f)
    ∧ (let f := copyT 0 1024 [0, 0, 0]
      judgeCopy (nodeS 0) .A 0 .A (wireT f) = .badSig f ∧ judgeCopy (nodeS 0) .B 0 .A (wireT f) = .badSig f)
    ∧ judgeCopy (nodeS 0) .A 0 .A [1] = .bad 0
    ∧ (∀ f ∈ [copyT 0 1024 [], copyT 0 1025 [], copyT 0 1023 [], copyT 0 9 [], copyT 2 1024 [], copyT 3 1024 []],
      Shaped (landS 5 f [] false) ∧ takeFrame (landS 5 f [] false).ab GwFrame.isVerdictA = some (.aVerdict 5 true, [])
        ∧ ((landS 5 f [] false).intake.bCopies.find? fun x => x.copy = 5) = some { copy := 5, port := 0, lane := .A, f := f })
    ∧ (landS 0 (copyT 0 1024 []) [] false).now = 1024 ∧ Config.tickAt 600 < Config.tickAt 600 + 1
    ∧ (let s : State := { nodeS 0 with ab := [.aVerdict 5 false] }
      takeFrame s.ab GwFrame.isVerdictA = some (.aVerdict 5 false, []) ∧ s.runs .B = true)
    ∧ (let s : State := { landS 0 (copyT 0 1023 []) [] false with intake := { (landS 0 (copyT 0 1023 []) [] false).intake with prevB := [entT] } }
      Shaped s ∧ (s.intake.prevB.find? fun e => e.node = 0) = some entT)
    ∧ (landS 0 (copyT 0 1024 []) [] true).intake.bClosed = true
    ∧ ((landS 0 (copyT 0 1024 []) [entT] true).intake.closeB.find? fun e => e.node = 0) = some entT
    ∧ takeFrame (gwS 0 [.landing entT] []).ba GwFrame.isLanding = some (.landing entT, [])
    ∧ (∀ c, c ∈ (nodeS 0).intake.bCopies → c.copy ≠ 5) := by
  refine ⟨?_, ?_, ?_, ?_, ?_, ?_, ?_, ?_, ?_, ?_, ?_, ?_, ?_, ?_, ?_, ?_, ?_, ?_, ?_⟩ <;> decide +kernel

/-- The close marker waits behind the notice of a copy that reports a divergence; node 0 is enrolled. -/
theorem wit_IntakeClosesOnBothDies :
    Shaped (nodeS 0) ∧ (nodeS 0).tide.running = true ∧ (nodeS 0).tide.ph = 0 ∧ (nodeS 1).tide.ph ≠ 0
    ∧ (PinSample.mk fiveReads fiveReads 1919 3201 1920 3200 0).wellFormed = true ∧ (1919 : Nat) < 1920 ∧ (3200 : Nat) < 3201
    ∧ (let s : State := { nodeS 0 with lio := { live.lio with
        disc := List.replicate 32 3, uvA := 3, uvB := 3, ovA := 1, ovB := 1, uvA2 := 3, uvB2 := 3, ovA2 := 1, ovB2 := 1 } }
      Shaped s ∧ s.lio.disc.getD 31 0 = 3 ∧ s.runs .A = true ∧ s.mode = .live)
    ∧ splitClose [.landing entT, .closeMarker 1024] = some ([entT], []) ∧ splitClose [.landing entT] = none
    ∧ entT.status.getLsbD 12 = true ∧ (nodeS 0).nodes.length = 1 ∧ (nodeS 0).enrolledNow 0 = true
    ∧ live.enrolledNow 0 = false := by
  refine ⟨?_, ?_, ?_, ?_, ?_, ?_, ?_, ?_, ?_, ?_, ?_, ?_, ?_, ?_⟩ <;> decide +kernel

/-- Both dies have formed their sets; or one has not reached its verdict. -/
def fenceS (formed : Bool) : State :=
  { livePh 2 with
    a := { live.a with formed := formed, sigDeadline := formed }, b := { live.b with formed := formed, sigDeadline := formed } }

theorem wit_FencesCommitTheTide :
    Shaped (fenceS true) ∧ (fenceS true).tide.running = true ∧ (fenceS true).tide.cfence = false
    ∧ (fenceS true).tide.ph.toNat < 3 ∧ (fenceS true).a.formed = true ∧ (fenceS true).b.formed = true
    ∧ undecided (fenceS true) .A = false ∧ undecided (fenceS true) .B = false ∧ undecided (fenceS false) .A = true
    ∧ (fenceS false).a.formed = false ∧ (fenceS true).runs .A = true ∧ (up .load).a.armed = false
    ∧ 3 ≤ (livePh 3).tide.ph.toNat ∧ 3 < (fenceS true).tide.budget.length ∧ (fenceS true).adopts = false := by decide +kernel

/-- The same net with one convoy of node 0; the unit sends and both dies have committed. -/
def emitS : State :=
  let n : Net := { netT with head := List.replicate 10 0 ++ [1], sec6 := [1] ++ List.replicate 20 0 }
  { nodeS 3 with
    a := { live.a with net := some n }, b := { live.b with net := some n }, twin := { live.twin with role := .solo }
    tide := { live.tide with ph := 3, cfence := true } }

theorem wit_EmissionAndGuardSendFrames :
    Shaped emitS ∧ emitS.tide.running = true ∧ emitS.tide.ph.toNat < 4
    ∧ (fieldSends emitS && emitS.tide.cfence && emitS.runs .B) = true ∧ emitS.netA.convoys.length = 1
    ∧ (∀ c ∈ emitS.netA.convoys, emitS.netA.convoyGroups c &&& heldGroups emitS = 0 ∧ c.port = 0)
    ∧ laneUp emitS 0 .A = true ∧ laneUp emitS 1 .A = false ∧ fieldSends (up .load) = false ∧ (livePh 4).tide.ph.toNat < 5
    ∧ emitS.mode = .live ∧ emitS.pws.hold = false ∧ emitS.mooredM = false ∧ (up .live).mooredM = true ∧ (up .load).mode ≠ .live
    ∧ 5 ≤ (livePh 5).tide.ph.toNat ∧ (Instr.guardStart (List.replicate 8 0)).wellFormed = true
    ∧ (let s : State := { livePh 4 with ports := { queueA := [copyT 1 1024 [], copyT 2 1024 []], upA := true } :: List.replicate 3 {} }
      Shaped s ∧ ((s.port 0).queueA.drop 0 ++ (s.port 0).queueB).filter (fun f => f.kind = 1) ≠ []
        ∧ ((s.port 0).queueA.drop 1 ++ (s.port 0).queueB).filter (fun f => f.kind = 1) = []) := by decide +kernel

/-- Tide boundaries: a plain one, a SOFT_RESTART, a change of period, role and mode, a commit in force or waiting. -/
theorem wit_TidesOpen :
    Shaped (livePh 5) ∧ (livePh 5).tide.running = true ∧ (livePh 5).start.restart = false ∧ State.reset.tide.running = false
    ∧ (let s : State := { livePh 5 with twin := { live.twin with role := .solo } }
      s.man.stage ≠ 6 ∧ s.twin.mirOk = false ∧ s.start.modeNext = none ∧ s.tide.perNext = none ∧ s.twin.roleNext = none
        ∧ s.twin.role ≠ .resync ∧ 3 ≤ s.tide.ph.toNat ∧ s.intake.held = [] ∧ s.mode ≠ .translate ∧ s.man.rebuildSince = none
        ∧ s.rows = [] ∧ Shaped s)
    ∧ (let s : State := { livePh 5 with start := { restart := true } }
      Shaped s ∧ s.tide.running = true ∧ s.start.restart = true)
    ∧ later (1025 : Tide) (live.now + 1) = false ∧ later (1026 : Tide) (live.now + 1) = true ∧ live.armedMode = true
    ∧ (let s : State := { livePh 5 with tide := { (livePh 5).tide with perNext := some (4, 1025) } }
      Shaped s ∧ s.tide.perNext = some (4, 1025) ∧ s.tide.running = true)
    ∧ (let s : State := { livePh 5 with
        tide := { (livePh 5).tide with perNext := some (4, 1025) }, twin := { live.twin with role := .follower } }
      Shaped s ∧ s.twin.role = .follower ∧ s.moor.remFM = false ∧ s.moor.qRemFM = false ∧ s.twin.mirOk = false)
    ∧ (let s : State := { livePh 5 with start := { bench := true, benchNext := some false } }
      Shaped s ∧ s.start.benchNext.getD s.start.bench = false)
    ∧ (let s : State := { livePh 5 with twin := { live.twin with role := .solo, roleNext := some (.leader, 2) } }
      Shaped s ∧ s.twin.role ≠ .resync ∧ s.twin.roleNext = some (.leader, 2))
    ∧ (let s : State := { livePh 5 with start := { modeNext := some .load } }
      Shaped s ∧ s.start.modeNext = some .load ∧ s.start.restart = false)
    ∧ (∀ n ∈ [1025, 1026],
      let s : State := { livePh 5 with man := { live.man with stage := 6, forceAt := some (BitVec.ofNat 36 n) } }
      Shaped s ∧ s.man.stage = 6 ∧ s.twin.mirOk = false ∧ s.start.modeNext = none
        ∧ s.man.forceAt = some (BitVec.ofNat 36 n))
    ∧ reached (live.now + 1) 1025 = true ∧ reached (live.now + 1) 1026 = false
    ∧ (live.man.forceAt.all fun f => later f (live.now + 1)) = true := by
  refine ⟨?_, ?_, ?_, ?_, ?_, ?_, ?_, ?_, ?_, ?_, ?_, ?_, ?_, ?_, ?_, ?_, ?_, ?_⟩ <;> decide +kernel

/-! ## The pair -/

/-- A unit of a pair in a role, with both lanes up and a heartbeat heard. -/
def pairS (r : Role) (p : BitVec 3) : State :=
  { nodeS p with
    twin := { live.twin with role := r, upA := true, upB := true, hbA := true, hbOnA := true, peer := List.replicate 105 0 } }

/-- A mirror or heartbeat frame of the other unit on lane A. -/
def peerT (kind : BitVec 4) (salt : Octets) (u : Bool) (payload : Octets) : Lst :=
  lstSign salt { copyT kind 1024 payload with unit := u }

set_option maxRecDepth 100000 in
theorem wit_MirrorsLeaveAndAreJudged :
    Shaped (pairS .leader 2) ∧ (pairS .leader 2).tide.running = true ∧ (pairS .leader 2).tide.ph.toNat < 3
    ∧ (pairS .leader 2).twin.hbA = true
    ∧ (let s : State := { pairS .leader 2 with tide := { live.tide with ph := 2, cfence := true } }
      Shaped s ∧ s.twin.role = .leader ∧ s.tide.cfence = true ∧ s.a.armed = true ∧ s.b.armed = true ∧ s.runs .A = true
        ∧ s.runs .B = true ∧ s.tide.running = true)
    ∧ (let s : State := { pairS .leader 3 with twin := { live.twin with mirQueue := [.svc .own []] } }
      Shaped s ∧ s.tide.ph = 3 ∧ s.twin.mirQueue ≠ [])
    ∧ (let f := peerT 9 ((pairS .follower 4).man.active.take 4) true [1]
      let s := pairS .follower 4
      hawserAccept s .A 9 hawserMax (s.man.active.take 4) (wireT f) (wireT f) = some f
        ∧ lstParse s.netB.vid s.netB.etype hawserMax (wireT f) = some f ∧ f.tide = s.now ∧ f.unit ≠ s.unitBit
        ∧ s.tide.ph.toNat ≤ 4 ∧ s.twin.mirChecked = false ∧ (dupTake s.twin.hbWins f).isSome = true)
    ∧ (∀ q ∈ [proofT netT 7 [] [], proofT netT 7 [(6, 1, 1)] [], proofT netT 4096 [(4095, 1, 1)] [], proofT netT 7 [(6, 1, 2)] []],
      let s : State := { pairS .leader 2 with man := { live.man with stage := 3, proof := some q } }
      Shaped s ∧ s.man.proof = some q ∧ s.man.stage = 3 ∧ s.tide.ph.toNat < 3)
    ∧ proofCompare (proofT netT 7 [(6, 1, 1)] []) = .more (proofT netT 7 [] [])
    ∧ proofCompare (proofT netT 7 [(6, 1, 2)] []) = .failed (proofSubject .stimulus 0 6)
    ∧ hawserAccept (pairS .follower 4) .A 9 hawserMax [] [] [] = none
    ∧ (pairS .follower 4).adopts = true ∧ (pairS .follower 4).runs .B = true ∧ (pairS .leader 4).adopts = false
    ∧ (pairS .follower 4).twin.mirChecked = false := by
  refine ⟨?_, ?_, ?_, ?_, ?_, ?_, ?_, ?_, ?_, ?_, ?_, ?_, ?_, ?_, ?_⟩ <;> decide +kernel

set_option maxRecDepth 100000 in
theorem wit_TheTwinHearsAndLosesItsPeer :
    (∀ u ∈ [true, false],
      let f := peerT 8 [0, 0, 0, 0] u (1 :: List.replicate 104 0)
      hawserAccept (pairS .follower 0) .A 8 105 [0, 0, 0, 0] (wireT f) (wireT f) = some f ∧ f.payload.length = 105
        ∧ (dupTake (pairS .follower 0).twin.hbWins f).isSome = true ∧ (f.unit = (pairS .follower 0).unitBit ↔ u = false))
    ∧ hawserAccept (pairS .follower 0) .A 8 105 [0, 0, 0, 0] [] [] = none
    ∧ hbStation (1 :: List.replicate 104 0) = (pairS .follower 0).twin.unitId.toNat / 2
    ∧ hbLeads (1 :: List.replicate 104 0) = true ∧ hbMoored (1 :: List.replicate 104 0) = false
    ∧ hbDigest (1 :: List.replicate 104 0) = (pairS .follower 0).man.active
    ∧ hbDigest (1 :: List.replicate 104 7) ≠ (pairS .follower 0).man.active
    ∧ (∀ r ∈ [Role.leader, .follower, .isoSending, .isoSilent, .resync], Shaped (pairS r 0) ∧ (pairS r 0).pairs = true
      ∧ (pairS r 0).tide.running = true ∧ (pairS r 0).netA.twin = true)
    ∧ live.pairs = false ∧ (pairS .follower 0).twin.hbOnB = false ∧ (pairS .follower 0).twin.hbOnA = true
    ∧ (∀ lost ∈ [false, true], ∀ r ∈ [Role.leader, .follower, .resync],
      let s : State := { pairS r 0 with twin := { (pairS r 0).twin with hbA := false, hbOnA := false, lost := lost, missA := 2 } }
      Shaped s ∧ s.pairs = true ∧ s.twin.hbOnA = false ∧ s.twin.hbOnB = false ∧ s.twin.lost = lost ∧ 2 ≤ s.twin.missA)
    ∧ settled ({ (pairS .leader 0).twin with peer := [] }) = false
    ∧ (let s : State := { pairS .follower 0 with twin := { (pairS .follower 0).twin with
        missB := 2, hbA := false, peer := 1 :: List.replicate 104 0, diffRun := [(0, 4096)] } }
      Shaped s ∧ 2 ≤ s.twin.missB ∧ s.twin.unsettled.isNone = true ∧ settled s.twin = true ∧ (0, 4096) ∈ s.twin.diffRun)
    ∧ (let s : State := { pairS .resync 0 with twin := { (pairS .resync 0).twin with
        adopt := true, resyncCnt := 63, segs := 0xFFFF } }
      Shaped s ∧ s.faultMoored = false ∧ s.farDiff = 0 ∧ s.twin.leaderNow = false ∧ 64 ≤ (sat18 s.twin.resyncCnt).toNat)
    ∧ (∀ n ∈ [15, 16],
      let s : State := { pairS .resync 0 with twin := { (pairS .resync 0).twin with noLeader := n, resyncHb := 4096, resyncCnt := 63 } }
      Shaped s ∧ s.armedMode = true ∧ s.twin.role = .resync ∧ s.unitBit = false ∧ s.twin.stalled = false ∧ s.twin.resyncCnt.toNat < 64)
    ∧ (let s : State := { pairS .isoSending 0 with twin := { (pairS .isoSending 0).twin with hold := 1, holdSince := 524 } }
      Shaped s ∧ s.twin.role = .isoSending ∧ reached s.now (tideAdd s.twin.holdSince (s.tides (1000 * s.twin.hold.toNat))) = true
        ∧ reached s.now (tideAdd 525 (s.tides (1000 * s.twin.hold.toNat))) = false)
    ∧ Shaped (commitS .leader) ∧ (commitS .leader).twin.role = .leader ∧ (commitS .leader).man.stage = 6
    ∧ (commitS .leader).twin.cop = 1 ∧ (commitS .leader).man.forceAt = none
    ∧ reached (commitS .leader).now (tideAdd (commitS .leader).man.commitAt 64) = false
    ∧ reached (commitS .leader).now (tideAdd 960 64) = true := by
  refine ⟨?_, ?_, ?_, ?_, ?_, ?_, ?_, ?_, ?_, ?_, ?_, ?_, ?_, ?_, ?_, ?_, ?_, ?_, ?_, ?_⟩ <;> decide +kernel

end Sys2Proof.Tests
end

section
/-!
SUPPORT. Firings in the words of the statements: what a firing of a source may change, and that its bit reads 1 after it.
-/

namespace Sys2Proof.Machine

/-! ## Firings -/

/-- What a firing of a source does, in the words of the statements (R319). -/
theorem fire_fires (s : State) (src : Fin 144) (gs : GSet) (subj : BitVec 32) (hl : s.ev.length = 18) :
    Fires s (fire s src.val gs subj) src.val :=
  ⟨fire_reacts s _ _ _, fireAt_fired s src gs subj false hl⟩

theorem fire1_fires (s : State) (src : Fin 144) (hl : s.ev.length = 18) : Fires s (fire1 s src.val) src.val :=
  fire_fires s src 0 0 hl

theorem fireIf_firesIf (s : State) (c : Bool) (src : Fin 144) (hl : s.ev.length = 18) :
    FiresIf c s (fireIf s c src.val) src.val := by
  cases c
  · rfl
  · exact fire1_fires s src hl

end Sys2Proof.Machine
end

section
/-!
SUPPORT. The timers' events, said once: beside the timers they change only what a firing may change. With it the tick of an
empty queue, and O1.
-/

namespace Sys2Proof.Machine

/-- Beside the timers themselves, only what a firing may change has changed. -/
def TimersReact (s t : State) : Prop := Reacts { s with tim := t.tim } t

namespace TimersReact

/-- What a firing may change does not depend on the timers. -/
theorem withTim {s t : State} (h : TimersReact s t) (x : TimSt) : Reacts { s with tim := x } { t with tim := x } where
  frame := by have f := h.frame; rw [f]
  evLength := h.evLength
  evOf := h.evOf
  dieA := h.dieA
  dieB := h.dieB
  moor := h.moor
  twin := h.twin
  svc := h.svc
  lio := h.lio
  portsLength := h.portsLength
  port := h.port
  sent := h.sent

theorem refl (s : State) : TimersReact s s := Reacts.refl s

theorem trans {s t u : State} (h : TimersReact s t) (g : TimersReact t u) : TimersReact s u :=
  (h.withTim u.tim).trans g

theorem of_reacts {s t : State} (h : Reacts s t) : TimersReact s t := by
  unfold TimersReact
  rw [h.tim]
  exact h

theorem withTimers (s : State) (x : TimSt) : TimersReact s { s with tim := x } := Reacts.refl _

theorem ite {s t u : State} (c : Prop) [Decidable c] (h : TimersReact s t) (g : TimersReact s u) :
    TimersReact s (if c then t else u) := by
  split
  · exact h
  · exact g

/-- A list of changes, each within what the timers' events may change. -/
theorem foldl {α : Type} (f : State → α → State) (h : ∀ s a, TimersReact s (f s a)) (l : List α) (s : State) :
    TimersReact s (l.foldl f s) := by
  induction l generalizing s with
  | nil => exact .refl s
  | cons a l ih => exact (h s a).trans (ih _)

theorem pending {s t : State} (h : TimersReact s t) : t.pending = s.pending := Reacts.pending (s := { s with tim := t.tim }) h

theorem tide {s t : State} (h : TimersReact s t) : t.tide = s.tide := Reacts.tide (s := { s with tim := t.tim }) h

end TimersReact

theorem modTim_timersReact (s : State) (n : Nat) (f : Timer → Timer) : TimersReact s (s.modTim n f) := .withTimers s _

theorem timEvent_timersReact (s : State) (n : Nat) (e : TimEv) : TimersReact s (timEvent s n e) := by
  unfold timEvent
  extract_lets t s1 _ s2
  have h2 : TimersReact s s2 := .withTimers s _
  exact .ite _ (h2.trans (.of_reacts (fire_reacts s2 _ _ _))) h2

theorem compareEval_timersReact (s : State) (n : Nat) : TimersReact s (compareEval s n) :=
  .ite _ ((modTim_timersReact s n _).trans (timEvent_timersReact _ n _)) (.refl s)

theorem timTick_timersReact (s : State) (n : Nat) : TimersReact s (timTick s n) := by
  unfold timTick
  extract_lets x t wrapsLow reload s1 s2 c1 c2
  refine .ite _ (.ite _ ?_ ?_) (.ite _ ?_ ?_)
  · have h1 : TimersReact s s1 := (modTim_timersReact s n _).trans (modTim_timersReact _ _ _)
    have h2 : TimersReact s1 s2 := .ite _ (timEvent_timersReact s1 n _) (.refl s1)
    exact ((h1.trans h2).trans (timEvent_timersReact s2 _ _)).trans (compareEval_timersReact _ n)
  · have h1 : TimersReact s c1 := modTim_timersReact s n _
    have h2 : TimersReact c1 c2 :=
      .ite _ ((modTim_timersReact c1 _ _).trans (timEvent_timersReact _ n _)) (.refl c1)
    exact (h1.trans h2).trans (compareEval_timersReact c2 n)
  · exact ((modTim_timersReact s n _).trans (timEvent_timersReact _ n _)).trans (compareEval_timersReact _ n)
  · exact (modTim_timersReact s n _).trans (compareEval_timersReact _ n)

theorem slaveAct_timersReact (s : State) (n : Nat) : TimersReact s (slaveAct s n) := by
  unfold slaveAct
  dsimp only
  refine .ite _ (.refl s) ?_
  split
  · exact .ite _ ((modTim_timersReact s n _).trans (modTim_timersReact _ _ _)) (modTim_timersReact s n _)
  · exact .ite _ (timTick_timersReact s n) (.refl s)
  · exact modTim_timersReact s n _
  · exact modTim_timersReact s n _
  · exact .refl s

theorem capture_timersReact (s : State) (n : Nat) : TimersReact s (capture s n) := by
  unfold capture
  extract_lets s1 s2
  have h1 : TimersReact s s1 := modTim_timersReact s n _
  have h2 : TimersReact s1 s2 := .ite _ (modTim_timersReact s1 _ _) (.refl s1)
  exact (h1.trans h2).trans (timEvent_timersReact s2 n _)

theorem capEdge_timersReact (s : State) (n : Nat) (rising : Bool) : TimersReact s (capEdge s n rising) :=
  .ite _ (.refl s) (.ite _ (capture_timersReact s n) (modTim_timersReact s n _))

theorem capSignal_timersReact (s : State) (c : Nat) (rising : Bool) : TimersReact s (capSignal s c rising) :=
  .foldl _ (fun s n => .ite _ (capEdge_timersReact s n rising) (.refl s)) _ s

theorem outEdges_timersReact (s : State) : TimersReact s (outEdges s) :=
  (TimersReact.withTimers s { s.tim with seen := s.tim.outs }).trans
    (.foldl _ (fun s _ => .ite _ (.refl s) (capSignal_timersReact s _ _)) _ _)

theorem slaveCycle_timersReact (s : State) : TimersReact s (slaveCycle s) :=
  ((TimersReact.withTimers s { s.tim with todo := [] }).trans (outEdges_timersReact _)).trans
    (.foldl _ (fun s n => .ite _ (slaveAct_timersReact s n) (.refl s)) _ _)

theorem slaveCycles_timersReact (k : Nat) (s : State) : TimersReact s (slaveCycles k s) := by
  induction k generalizing s with
  | zero => exact .refl s
  | succ k ih => exact .ite _ (.refl s) ((slaveCycle_timersReact s).trans (ih _))

/-- What follows a timer command changes the timers and what their sources' firings may change (R347, R350). -/
theorem settleTimers_timersReact (s : State) : TimersReact s (settleTimers s) := slaveCycles_timersReact 32 s

/-! ## The tick of an empty queue -/

/-- The count of a tick that is not the last of its tide (R46). -/
theorem tick_succ_toNat (k : BitVec 12) (h : k ≠ 4095) : (k + 1).toNat = min (k.toNat + 1) 4095 := by
  have hk : k.toNat ≠ 4095 := fun e => h (BitVec.eq_of_toNat_eq e)
  have := k.isLt
  rw [BitVec.toNat_add]
  simp only [BitVec.reduceToNat, Nat.reducePow] at *
  omega

theorem idle_pending (s : State) : (idle s).pending = s.pending := by
  unfold idle
  extract_lets _ s1
  rw [(settleTimers_timersReact s1).pending]
  simp only [s1]
  split <;> rfl

theorem idle_tide (s : State) :
    (idle s).tide = if s.tide.running && s.tide.tick ≠ 4095 then { s.tide with tick := s.tide.tick + 1 } else s.tide := by
  unfold idle
  extract_lets _ s1
  rw [(settleTimers_timersReact s1).tide]
  simp only [s1]
  split <;> rfl

theorem idle_tick_of_stopped (s : State) (h : s.tide.running = false) : (idle s).tide.tick = s.tide.tick := by
  simp [idle_tide, h]

/-- A running tide's tick goes on by one and stops at its last (log 1). -/
theorem idle_tick_of_running (s : State) (h : s.tide.running = true) :
    (idle s).tide.tick.toNat = min (s.tide.tick.toNat + 1) 4095 := by
  rw [idle_tide, h]
  by_cases hk : s.tide.tick = 4095
  · simp [hk]
  · rw [if_pos (by rwa [Bool.true_and, decide_eq_true_eq])]
    exact tick_succ_toNat _ hk

end Sys2Proof.Machine

open Sys2Proof Sys2Proof.Machine

/-- Settles O1: `step` is `exec` on the queue's front, and what the timers do on an empty queue changes no command and no tide. -/
theorem queueRunsInOrder : Obligations.QueueRunsInOrder := by
  refine ⟨fun c s => rfl, fun s hs => ⟨idle s, ?_, ?_, ?_, idle_tick_of_stopped s, idle_tick_of_running s⟩,
    fun s nbits w => ⟨rfl, rfl⟩⟩
  · simp only [step, hs]
  · rw [idle_pending, hs]
  · rw [idle_tide]
    split <;> rfl

end

section
/-!
SUPPORT. Hold and release of both dies and the reset contact, one equation per command, and O48.
-/

namespace Sys2Proof.Machine

/-! ## Hold and release of the dies (R387 to R391) -/

/-- Cutting a burn off changes the fuses and the count of draws alone (R377). -/
theorem burnCut_frame (s : State) : burnCut s = { s with fus := (burnCut s).fus, draws := (burnCut s).draws } := by
  unfold burnCut
  split
  · rfl
  · next x _ => cases h : x.die <;> simp [State.modFuse]

/-- What a cut leaves of the fuses depends on the fuses and the count of draws alone. -/
theorem burnCut_congr {s t : State} (hf : t.fus = s.fus) (hd : t.draws = s.draws) :
    (burnCut t).fus = (burnCut s).fus ∧ (burnCut t).draws = (burnCut s).draws := by
  unfold burnCut
  rw [hf, hd]
  split
  · exact ⟨hf, hd⟩
  · next x _ => cases h : x.die <;> simp [State.modFuse, hf]

/-- What stands of the module while both dies are in reset (R13, R387). -/
theorem holdDies_eq (s : State) : holdDies s = { State.reset with
    pending := s.pending, tx := s.tx, draws := (burnCut s).draws, norA := s.norA, norB := s.norB, rcd := s.rcd.kept,
    fus := { a := { lo := (burnCut s).fus.a.lo, hi := (burnCut s).fus.a.hi },
             b := { lo := (burnCut s).fus.b.lo, hi := (burnCut s).fus.b.hi } },
    pws := { s.pws with released := false },
    bells := { s.bells with edgesA := 0, edgesB := 0, edgeA := false, edgeB := false } } := by
  unfold holdDies
  rw [burnCut_frame s]
  rfl

theorem releaseDies_eq (s : State) (cause : Byte) : releaseDies s cause = { holdDies s with
    mode := if s.pws.railA then .off else .fuseRead,
    a := { inReset := s.pws.railA }, b := { inReset := s.pws.railB },
    pws := { s.pws with cause := cause, nextCause := 1, hold := false, seqEnded := false, rstHeld := false,
                        released := true } } := by
  unfold releaseDies
  rw [holdDies_eq]
  rfl

theorem PwsSt.active_iff (p : PwsSt) (d : Die) : p.active d = true ↔ p.stage d = 4 := by
  simp [PwsSt.active]

/-- A stage carries the load. -/
theorem PwsSt.loaded_iff (p : PwsSt) : (p.active .A || p.active .B) = true ↔ p.stage .A = 4 ∨ p.stage .B = 4 := by
  simp [PwsSt.active_iff]

theorem execHoldupCutoff_of_due (s : State) (hh : s.pws.hold = true) (he : s.pws.seqEnded = false) :
    execHoldupCutoff s = .next { holdDies s with
      pws := { s.pws with released := false, seqEnded := true, nextCause := 3 } } := by
  simp only [execHoldupCutoff, hh, he, holdDies_eq, State.modPws]
  rfl

theorem execHoldupCutoff_of_not_due (s : State) (h : s.pws.hold = false ∨ s.pws.seqEnded = true) :
    execHoldupCutoff s = .next s := by
  rcases h with h | h <;> simp [execHoldupCutoff, h]

/-- The dies are released after hold-up where a stage carries the load and RST_N does not hold them (R388). -/
theorem execDieRelease_eq (s : State) : execDieRelease s =
    if s.pws.hold = true ∧ s.pws.seqEnded = true ∧ (s.pws.stage .A = 4 ∨ s.pws.stage .B = 4) ∧ s.pws.rstHeld = false then
      .next (releaseDies s 3)
    else .next s := by
  unfold execDieRelease
  refine if_congr ?_ rfl rfl
  rw [Bool.and_eq_true, Bool.and_eq_true, Bool.and_eq_true, PwsSt.loaded_iff, Bool.not_eq_true', and_assoc, and_assoc]

theorem execPowerUp_eq (s : State) : execPowerUp s =
    if s.mode = .off ∧ s.pws.released = false ∧ s.pws.hold = false ∧ s.pws.rstHeld = false then
      .next (releaseDies s s.pws.nextCause)
    else .next s := by
  unfold execPowerUp
  refine if_congr ?_ rfl rfl
  simp only [Bool.and_eq_true, Bool.not_eq_true', decide_eq_true_eq, and_assoc]

/-! ## The reset contact (R389, R391, R425) -/

theorem rstReading_of_closed (s : State) (ohms : Nat) (h : ohms < 100) : rstReading s ohms = (s, true) := if_pos h

theorem rstReading_of_open (s : State) (ohms : Nat) (h : 10000 < ohms) : rstReading s ohms = (s, false) := by
  rw [rstReading, if_neg (by omega), if_pos h]

/-- Between the thresholds the reading is free (log 10). -/
theorem rstReading_of_between (s : State) (ohms : Nat) (hl : 100 ≤ ohms) (hh : ohms ≤ 10000) :
    rstReading s ohms = ({ s with draws := s.draws + 1 }, Config.rstReads s.draws) := by
  rw [rstReading, if_neg (by omega), if_neg (by omega)]

theorem execRstNClose_of_closed (s : State) (ohms : Nat) (h : ohms < 100) :
    execRstNClose ohms s = .next { s with pws := { s.pws with rstClosed := true } } := by
  rw [execRstNClose, rstReading_of_closed s ohms h]
  rfl

theorem execRstNClose_of_open (s : State) (ohms : Nat) (h : 10000 < ohms) : execRstNClose ohms s = .next s := by
  rw [execRstNClose, rstReading_of_open s ohms h]
  rfl

theorem execRstNClose_of_between (s : State) (ohms : Nat) (hl : 100 ≤ ohms) (hh : ohms ≤ 10000) :
    execRstNClose ohms s = .next { s with
      draws := s.draws + 1, pws := { s.pws with rstClosed := s.pws.rstClosed || Config.rstReads s.draws } } := by
  simp only [execRstNClose, rstReading_of_between s ohms hl hh, State.modPws]
  cases Config.rstReads s.draws <;> simp

theorem execRstPend_of_closed (s : State) (hc : s.pws.rstClosed = true) (hp : s.pws.rstPend = false) :
    execRstPend s = .next { s with
      pws := { s.pws with rstPend := true },
      rcd := if s.runs .A then { s.rcd with flush := true, flushOp := 3 } else s.rcd } := by
  have hr : s.runs .A = !s.a.inReset := rfl
  rw [execRstPend, if_neg (by simp [hc, hp]), hr]
  cases h : s.a.inReset <;> simp [State.modPws, startFlush, h]

theorem execRstPend_of_not_closed (s : State) (h : s.pws.rstClosed = false ∨ s.pws.rstPend = true) :
    execRstPend s = .next s := by
  rcases h with h | h <;> simp [execRstPend, h]

theorem execRstHold_of_pending (s : State) (hc : s.pws.rstClosed = true) (hp : s.pws.rstPend = true)
    (hh : s.pws.rstHeld = false) :
    execRstHold s = .next { holdDies s with
      pws := { s.pws with released := false, rstHeld := true, longNow := false, nextCause := 2 } } := by
  simp only [execRstHold, hc, hp, hh, holdDies_eq, State.modPws]
  rfl

theorem execRstHold_of_not_pending (s : State)
    (h : s.pws.rstClosed = false ∨ s.pws.rstPend = false ∨ s.pws.rstHeld = true) : execRstHold s = .next s := by
  rcases h with h | h | h <;> simp [execRstHold, h]

/-- A hold of more than 10 s is counted once (R390). -/
theorem execRstLong_of_held (s : State) (hh : s.pws.rstHeld = true) (hl : s.pws.longNow = false) :
    execRstLong s = .next { s with pws := { s.pws with longNow := true, longHolds := sat16 s.pws.longHolds } } := by
  rw [execRstLong, hh, hl]
  rfl

theorem execRstLong_of_not_held (s : State) (h : s.pws.rstHeld = false ∨ s.pws.longNow = true) :
    execRstLong s = .next s := by
  rcases h with h | h <;> simp [execRstLong, h]

/-- The PWS state after RST_N has opened. -/
def PwsSt.opened (p : PwsSt) : PwsSt := { p with rstClosed := false, rstPend := false }

/-- The PWS state after the end of a hold of `tenths` tenths of a second (R390). -/
def PwsSt.letGo (p : PwsSt) (tenths : Word) : PwsSt :=
  { p.opened with rstHeld := false, rsth := tenths, longReport := p.longReport || p.longNow, longNow := false }

/-- What RST_N_OPEN does where the contact reads open (R391). -/
theorem execRstNOpen_of_open (s : State) (ohms : Nat) (tenths : Word) (h : 10000 < ohms) :
    execRstNOpen ohms tenths s =
      if s.pws.rstClosed = false then .next s
      else if s.pws.rstHeld = false then .next { s with pws := s.pws.opened }
      else if s.pws.hold = false ∧ (s.pws.stage .A = 4 ∨ s.pws.stage .B = 4) then
        .next (releaseDies { s with pws := s.pws.letGo tenths } 2)
      else .next { s with pws := s.pws.letGo tenths } := by
  simp only [execRstNOpen, rstReading_of_open s ohms h, Bool.false_or, Bool.not_eq_true', State.modPws]
  refine if_congr Iff.rfl rfl (if_congr Iff.rfl rfl (if_congr ?_ rfl rfl))
  rw [Bool.and_eq_true, Bool.not_eq_true', PwsSt.loaded_iff]
  rfl

theorem execRstNOpen_of_closed (s : State) (ohms : Nat) (tenths : Word) (h : ohms < 100) :
    execRstNOpen ohms tenths s = .next s := by
  simp [execRstNOpen, rstReading_of_closed s ohms h]

/-- Between the thresholds RST_N_OPEN acts as for a closed or for an open contact (log 10). -/
theorem execRstNOpen_of_between (s : State) (ohms : Nat) (tenths : Word) (hl : 100 ≤ ohms) (hh : ohms ≤ 10000) :
    execRstNOpen ohms tenths s =
      execRstNOpen (if Config.rstReads s.draws then 99 else 10001) tenths { s with draws := s.draws + 1 } := by
  unfold execRstNOpen
  rw [rstReading_of_between s ohms hl hh]
  cases Config.rstReads s.draws
  · rw [rstReading_of_open _ _ (by decide)]
  · rw [rstReading_of_closed _ _ (by decide)]

end Sys2Proof.Machine

open Sys2Proof Sys2Proof.Machine

/-- Settles O48: each command by its own equation, the hold and the release of the dies by theirs. -/
theorem holdAndReleaseOfTheDies : Obligations.HoldAndReleaseOfTheDies := by
  intro s p held loaded
  refine ⟨holdDies_eq s, releaseDies_eq s, execHoldupCutoff_of_due s, execHoldupCutoff_of_not_due s,
    ⟨fun h => (execDieRelease_eq s).trans (if_pos h), fun h => (execDieRelease_eq s).trans (if_neg h)⟩,
    ⟨fun h => (execPowerUp_eq s).trans (if_pos h), fun h => (execPowerUp_eq s).trans (if_neg h)⟩,
    execRstNClose_of_closed s, execRstNClose_of_open s, execRstNClose_of_between s, execRstPend_of_not_closed s,
    execRstPend_of_closed s, execRstHold_of_pending s, execRstHold_of_not_pending s, execRstLong_of_held s,
    execRstLong_of_not_held s, fun ohms tenths => ?_⟩
  · intro opened after
    have hopen := execRstNOpen_of_open s ohms tenths
    refine ⟨fun h => ?_, fun ho hc hh => ?_, fun ho hc hh hu hl => ?_, fun ho hc hh hu => ?_, fun hl hh => ?_⟩
    · rcases h with h | ⟨h, hc⟩
      · exact execRstNOpen_of_closed s ohms tenths h
      · exact (hopen h).trans (if_pos hc)
    · rw [← Bool.not_eq_false] at hc
      exact (hopen ho).trans ((if_neg hc).trans (if_pos hh))
    · rw [← Bool.not_eq_false] at hc hh
      exact (hopen ho).trans ((if_neg hc).trans ((if_neg hh).trans (if_pos ⟨hu, hl⟩)))
    · rw [← Bool.not_eq_false] at hc hh
      rw [← Bool.not_eq_false, ← not_and_or] at hu
      exact (hopen ho).trans ((if_neg hc).trans ((if_neg hh).trans (if_neg hu)))
    · exact ⟨_, by cases Config.rstReads s.draws <;> simp, execRstNOpen_of_between s ohms tenths hl hh⟩

end

section
/-!
SUPPORT. The island supervisors: what stands while one die alone is in reset, what its return does, and O20.
-/

namespace Sys2Proof.Machine

/-! ## Island supervisors (R26) -/

theorem setRail_rail (s : State) (d : Die) (v : Bool) : (setRail s d v).rail d = v := by cases d <;> rfl

theorem setRail_rail_other (s : State) (d : Die) (v : Bool) : (setRail s d v).rail (Die.other d) = s.rail (Die.other d) := by
  cases d <;> rfl

theorem execIslandRailFault_of_held (s : State) (d : Die) (h : s.runs d = false) :
    execIslandRailFault d s = .next (setRail s d true) := by
  simp only [execIslandRailFault, h]
  rfl

/-- What stands of the module while the A-die alone is in reset (R13, R26). -/
theorem holdA_eq (s : State) : holdA s = { State.reset with
    pending := s.pending, b := s.b, evb := s.evb, norA := s.norA, norB := s.norB, tx := s.tx,
    draws := (burnCut s).draws, rows := cellErase s.rows 0 (2 ^ 24),
    lio := { cmdB := s.lio.cmdB, wantB := s.lio.wantB, inB := s.lio.inB, rbB := s.lio.rbB },
    fus := { a := (burnCut s).fus.a.restarted, b := (burnCut s).fus.b },
    rcd := s.rcd.kept, pws := { s.pws with released := true },
    bells := { s.bells with edgesA := 0, edgesB := 0, edgeA := false, edgeB := false } } := by
  rw [holdA, holdDies_eq]
  rfl

/-- The state after the burn that the B-die makes, if it makes one, has been cut off (R377). -/
def cutB (s : State) : State := if s.fus.burn.any (fun x => x.die = .B) then burnCut s else s

/-- What such a cut leaves of the fuses depends on the fuses and the count of draws alone. -/
theorem cutB_congr {s t : State} (hf : t.fus = s.fus) (hd : t.draws = s.draws) :
    (cutB t).fus = (cutB s).fus ∧ (cutB t).draws = (cutB s).draws := by
  unfold cutB
  rw [hf]
  split
  · exact burnCut_congr hf hd
  · exact ⟨hf, hd⟩

theorem cutB_frame (s : State) : cutB s = { s with fus := (cutB s).fus, draws := (cutB s).draws } := by
  unfold cutB
  split
  · exact burnCut_frame s
  · rfl

/-- What stands of the module while the B-die alone is in reset: its registers, commands and memories are at their reset
values, and what its taps keep is gone (R13, R26, R106). -/
theorem holdB_eq (s : State) : holdB s = { s with
    b := {}, evb := EvBlock.initial 3, ab := [], intake := (tapsLost s).intake, svc := (tapsLost s).svc,
    draws := (cutB s).draws, rows := cellErase s.rows (2 ^ 24) (2 ^ 25),
    lio := { s.lio with cmdB := 0, wantB := 0, switching := List.replicate 16 10 },
    fus := { (cutB s).fus with b := (cutB s).fus.b.restarted }, bells := { s.bells with edgesB := 0, edgeB := false } } := by
  let u := dropCommands { tapsLost s with b := {}, evb := EvBlock.initial 3, ab := [] } .B
  obtain ⟨hf, hd⟩ := cutB_congr (s := s) (t := u) rfl rfl
  show ({ cutB u with
    fus := { (cutB u).fus with b := (cutB u).fus.b.restarted }, rows := ((tapsLost s).rowsWrite .B 0 (2 ^ 24)).rows,
    bells := { (cutB u).bells with edgesB := 0, edgeB := false } } : State) = _
  rw [cutB_frame u, hf, hd]
  rfl

/-- A slot without what the B-die's tap keeps. -/
theorem tapsLost_slot (s : State) (k r : Nat) : (tapsLost s).slot k r = (s.slot k r).map fun x => { x with tap := none } := by
  simp only [tapsLost, State.slot, State.ses, List.getD_eq_getElem?_getD, List.getElem?_map]
  rcases s.svc.ses[k]? with _ | _ | x
  · rfl
  · rfl
  · simp only [Option.map_some, Option.getD_some, Option.bind_some, List.getElem?_map]
    rcases x.slots[r]? with _ | _ | y <;> rfl

/-- The sessions keep everything but what the B-die's tap keeps of their requests. -/
theorem tapsLost_ses (s : State) (k : Nat) :
    ((tapsLost s).ses k).map (fun x => { x with slots := [] }) = (s.ses k).map fun x => { x with slots := [] } := by
  simp only [tapsLost, State.ses, List.getD_eq_getElem?_getD, List.getElem?_map]
  rcases s.svc.ses[k]? with _ | _ | x <;> rfl

/-! ## The rail restored -/

theorem execIslandRailRestored_of_not_held (s : State) (d : Die) (h : s.rail d = false ∨ s.pws.released = false) :
    execIslandRailRestored d s = .next (setRail s d false) := by
  rcases h with h | h <;> simp [execIslandRailRestored, h]

theorem execIslandRailRestored_a (s : State) (hr : s.rail .A = true) (hp : s.pws.released = true) :
    execIslandRailRestored .A s = .next { s with
      mode := .fuseRead, a := { s.a with inReset := false }, pws := { s.pws with railA := false } } := by
  rw [execIslandRailRestored, if_neg (by simp [hr, hp])]
  rfl

theorem execIslandRailRestored_b (s : State) (hr : s.rail .B = true) (hp : s.pws.released = true) :
    execIslandRailRestored .B s = .next (resumeB { s with
      b := { s.b with inReset := false }, pws := { s.pws with railB := false } }) := by
  rw [execIslandRailRestored, if_neg (by simp [hr, hp])]
  rfl

theorem resumeB_of_sensed (s : State) (h : s.fus.b.sensed = true ∨ s.mode = .fuseRead ∨ s.mode = .off) : resumeB s = s := by
  rw [resumeB, if_pos]
  simpa [or_assoc] using h

/-- Sensing has found something that the B-die raises EVB 47 for (R322, R369). -/
def FuseDie.finds (f : FuseDie) : Bool :=
  !f.weak.isEmpty || f.latched.copiesDiffer || f.latched.spareUsed || f.latched.unresolved

/-- The state in which a B-die that senses only now raises what it finds: without its identity the module is Halted (R368). -/
def resensedB (s : State) : State := { s with
  fus := { s.fus with b := s.fus.b.sense }, mode := if s.fus.b.sense.latched.identity .B then s.mode else .halted }

theorem resumeB_of_unsensed (s : State) (hs : s.fus.b.sensed = false) (hf : s.mode ≠ .fuseRead) (ho : s.mode ≠ .off) :
    resumeB s = fireIf (resensedB s) s.fus.b.sense.finds 47 := by
  have h : resumeB s = senseSources (if s.fus.b.sense.latched.identity .B then s.modFuse .B FuseDie.sense
      else { s.modFuse .B FuseDie.sense with mode := .halted }) .B := by
    rw [resumeB, if_neg (by simp [hs, hf, ho])]
    rfl
  rw [h, resensedB]
  cases s.fus.b.sense.latched.identity .B <;> rfl

end Sys2Proof.Machine

open Sys2Proof Sys2Proof.Machine

/-- Settles O20: a rail fault holds its die as `holdA_eq` and `holdB_eq` say, its return lets it go. -/
theorem islandSupervisorsHoldDies : Obligations.IslandSupervisorsHoldDies := by
  intro s d hs on off
  obtain ⟨-, hev, -⟩ := hs
  refine ⟨setRail_rail s d true, setRail_rail s d false, setRail_rail_other s d true, execIslandRailFault_of_held s d,
    fun hr => ?_, fun hr => ?_, execIslandRailRestored_of_not_held s d, execIslandRailRestored_a s, fun hr hp => ?_⟩
  · refine ⟨holdA (setRail s .A true), ?_, ?_, ?_⟩
    · show execIslandRailFault .A s = _
      simp only [execIslandRailFault, hr]
      rfl
    · obtain ⟨hf, hd⟩ := burnCut_congr (s := s) (t := setRail s .A true) rfl rfl
      rw [holdA_eq, hf, hd]
      rfl
    · rw [holdA_eq]
      rfl
  · refine ⟨holdB (setRail s .B true), ?_, ?_⟩
    · show execIslandRailFault .B s = _
      simp only [execIslandRailFault, hr]
      rfl
    · obtain ⟨hf, hd⟩ := cutB_congr (s := s) (t := setRail s .B true) rfl rfl
      rw [holdB_eq, hf, hd]
      exact ⟨rfl, rfl, rfl, rfl, tapsLost_slot s, tapsLost_ses s, rfl⟩
  · intro s1 f
    refine ⟨fun h => ?_, fun hn hf ho => ⟨fireIf (resensedB s1) f.finds 47, ?_, ?_⟩⟩
    · exact (execIslandRailRestored_b s hr hp).trans (congrArg _ (resumeB_of_sensed s1 h))
    · exact (execIslandRailRestored_b s hr hp).trans (congrArg _ (resumeB_of_unsensed s1 hn hf ho))
    · show FiresIf f.finds (resensedB s1) (fireIf (resensedB s1) f.finds 47) 47
      generalize f.finds = c
      exact fireIf_firesIf (resensedB s1) c ⟨47, by decide⟩ hev

end

section
/-!
SUPPORT. The end of sessions leaves none open, the end of a block's reset, and O15.
-/

namespace Sys2Proof.Machine

/-! ## Sessions that end -/

/-- No session opens. -/
def NoneOpens (s t : State) : Prop := ∀ k, s.ses k = none → t.ses k = none

namespace NoneOpens

theorem refl (s : State) : NoneOpens s s := fun _ h => h

theorem trans {s t u : State} (h : NoneOpens s t) (g : NoneOpens t u) : NoneOpens s u := fun k hk => g k (h k hk)

theorem of_eq {s t : State} (h : t.svc.ses = s.svc.ses) : NoneOpens s t := fun k hk => by
  unfold State.ses at *
  rw [h, hk]

theorem foldl {α : Type} (f : State → α → State) (h : ∀ s a, NoneOpens s (f s a)) (l : List α) (s : State) :
    NoneOpens s (l.foldl f s) := by
  induction l generalizing s with
  | nil => exact .refl s
  | cons a l ih => exact (h s a).trans (ih _)

end NoneOpens

theorem recHelm_svc (s : State) (c : Nat) (o n : Option (Fin 8)) (ol nl np : Nat) :
    (recHelm s c o n ol nl np).svc = s.svc := by
  unfold recHelm recMake recAdd
  split <;> rfl

theorem recHelm_noneOpens (s : State) (c : Nat) (o n : Option (Fin 8)) (ol nl np : Nat) :
    NoneOpens s (recHelm s c o n ol nl np) := .of_eq (by rw [recHelm_svc])

theorem modSes_noneOpens (s : State) (k : Nat) (f : Session → Session) : NoneOpens s (s.modSes k f) := fun j hj => by
  simp only [State.ses, State.modSes_svc, List.getD_eq_getElem?_getD, listMod_getElem?] at *
  split
  · cases h : s.svc.ses[j]? <;> simp_all
  · exact hj

theorem svcOut_noneOpens (s : State) (c : Client) (msg : Octets) (note : Option (Fin 8)) :
    NoneOpens s (svcOut s c msg note) := by
  unfold svcOut
  split
  · exact .of_eq rfl
  · exact .of_eq rfl
  · exact .of_eq rfl
  · split
    · exact .refl s
    · exact .of_eq rfl

theorem sesPut_noneOpens (s : State) (k : Fin 8) (typ : Nat) (body : Octets) : NoneOpens s (sesPut s k typ body) := by
  unfold sesPut
  split
  · exact .refl s
  · split
    · exact .refl s
    · exact (modSes_noneOpens s k.val _).trans (svcOut_noneOpens _ _ _ _)

theorem slotDone_noneOpens (s : State) (k : Fin 8) (r status : Nat) (tx ift : Tide) (data : Octets) :
    NoneOpens s (slotDone s k r status tx ift data) := by
  unfold slotDone
  split
  · exact .refl s
  · exact (modSes_noneOpens s k.val _).trans (sesPut_noneOpens _ _ _ _)

theorem helmNotify_noneOpens (s : State) (ks : List Nat) : NoneOpens s (helmNotify s ks) :=
  .foldl _ (fun s k => modSes_noneOpens s k _) _ s

theorem setHelm_noneOpens (s : State) (h : HelmSt) : NoneOpens s { s with svc := { s.svc with helm := h } } := .of_eq rfl

theorem helmGive_noneOpens (s : State) (k : Fin 8) (c : Nat) : NoneOpens s (helmGive s k c) :=
  ((setHelm_noneOpens s _).trans (recHelm_noneOpens _ _ _ _ _ _ _)).trans (helmNotify_noneOpens _ _)

theorem seizeDone_noneOpens (s : State) (z : Fin 8) : NoneOpens s (seizeDone s z) :=
  (helmGive_noneOpens s z 5).trans (slotDone_noneOpens _ _ _ _ _ _ _)

theorem helmSesEnd_noneOpens (s : State) (k : Fin 8) : NoneOpens s (helmSesEnd s k) := by
  unfold helmSesEnd
  dsimp only
  split
  · exact (setHelm_noneOpens s _).trans (recHelm_noneOpens _ _ _ _ _ _ _)
  · split
    · exact setHelm_noneOpens s _
    · exact .refl s

theorem noSes_ses (s : State) (k j : Nat) : (s.noSes k).ses j = if j = k then none else s.ses j := by
  simp only [State.noSes, State.ses, List.getD_eq_getElem?_getD, listMod_getElem?]
  split
  · cases s.svc.ses[j]? <;> rfl
  · rfl

theorem noSes_noneOpens (s : State) (k : Nat) : NoneOpens s (s.noSes k) := fun j hj => by
  rw [noSes_ses, hj, ite_self]

/-- A session that goes is closed, and none opens (R280). -/
theorem sesGone_closes (s : State) (k : Fin 8) : NoneOpens s (sesGone s k) ∧ (sesGone s k).ses k.val = none := by
  have key : ∀ t, NoneOpens s t → NoneOpens s (t.noSes k.val) ∧ (t.noSes k.val).ses k.val = none := fun t h =>
    ⟨h.trans (noSes_noneOpens t k.val), by rw [noSes_ses, if_pos rfl]⟩
  unfold sesGone
  dsimp only
  split
  · split
    · exact key _ (seizeDone_noneOpens s _)
    · exact key _ (helmSesEnd_noneOpens s k)
  · exact key _ (helmSesEnd_noneOpens s k)

theorem endSession_closes (s : State) (k : Fin 8) : NoneOpens s (endSession s k) ∧ (endSession s k).ses k.val = none := by
  obtain ⟨hn, hk⟩ := sesGone_closes s k
  unfold endSession
  split
  · exact ⟨.refl s, by assumption⟩
  · dsimp only
    split
    · split
      · have hz := (sesGone_closes (sesGone s k) (by assumption)).1
        exact ⟨hn.trans hz, hz _ hk⟩
      · exact ⟨hn, hk⟩
    · exact ⟨hn, hk⟩

/-- One step of `endSessions`: session k ends where it is open and p holds of it. -/
def endIf (p : Session → Bool) (s : State) (k : Fin 8) : State :=
  match s.ses k.val with
  | some x => if p x then endSession s k else s
  | none => s

theorem endSessions_eq_foldl (s : State) (p : Session → Bool) : endSessions s p = sesNums.foldl (endIf p) s := rfl

theorem endIf_true_closes (s : State) (k : Fin 8) :
    NoneOpens s (endIf (fun _ => true) s k) ∧ (endIf (fun _ => true) s k).ses k.val = none := by
  unfold endIf
  split
  · exact endSession_closes s k
  · exact ⟨.refl s, by assumption⟩

/-- Ending every session of a list of numbers leaves each of them closed. -/
theorem foldl_endIf_true_closes (l : List (Fin 8)) (s : State) :
    ∀ k ∈ l, (l.foldl (endIf fun _ => true) s).ses k.val = none := by
  induction l generalizing s with
  | nil => simp
  | cons a l ih =>
    intro k hk
    rcases List.mem_cons.mp hk with rfl | hk
    · obtain ⟨-, hc⟩ := endIf_true_closes s k
      exact NoneOpens.foldl _ (fun s k => (endIf_true_closes s k).1) l _ _ hc
    · exact ih _ k hk

/-- Once every session is to end, none is open. -/
theorem endSessions_all_ses (s : State) (k : Fin 8) : (endSessions s fun _ => true).ses k.val = none := by
  rw [endSessions_eq_foldl]
  exact foldl_endIf_true_closes sesNums s k (List.mem_finRange k)

/-! ## Block resets that end (R401) -/

/-- A unit is out of reset once its entries are gone, and no other unit comes out. -/
theorem unitDown_filter (s t : State) (u : RstUnit) (h : t.resets = s.resets.filter fun x => x.1 ≠ u) :
    t.unitDown u = false ∧ ∀ v, v ≠ u → t.unitDown v = s.unitDown v := by
  simp only [State.unitDown, h, List.any_filter]
  refine ⟨by simp, fun v hv => ?_⟩
  congr 1
  funext x
  by_cases hx : x.1 = v
  · simp [hx, hv]
  · simp [hx]

theorem execBlockResetEnd_of_up (s : State) (u : RstUnit) (ok : Bool) (h : s.unitDown u = false) :
    execBlockResetEnd u ok s = .next s := by
  simp [execBlockResetEnd, h]

theorem execBlockResetEnd_passed (s : State) (u : RstUnit) (h : s.unitDown u = true) :
    execBlockResetEnd u true s = .next (blockRestart s u) := by
  simp [execBlockResetEnd, h]

theorem execBlockResetEnd_failed (s : State) (u : RstUnit) (h : s.unitDown u = true) :
    execBlockResetEnd u false s = .next (fire s (resetTrigger s u).1 (resetTrigger s u).2.1 (resetTrigger s u).2.2) := by
  simp [execBlockResetEnd, h]

/-- What SVC's restart makes of the state in which every session has ended (R401). -/
def svcEmptied (s1 : State) : State := { s1 with
  resets := s1.resets.filter fun x => x.1 ≠ .svc, intake := { s1.intake with asm := [] },
  svc := { s1.svc with
    txoff := 0, txlen := 0, rxbase := 0, rxsize := 0, rxhead := 0, rxtail := 0, busy := false,
    rxovr := false, txerr := false, inbox := [], outQ := [], frags := [], ringIn := [] } }

/-- SVC leaves its reset empty, every session ended (R401, log 72). -/
theorem blockRestart_svc (s : State) : blockRestart s .svc = svcEmptied (endSessions s fun _ => true) := by
  unfold blockRestart
  generalize (endSessions s fun _ => true) = s1
  simp only [State.modIntake, State.modSvc, svcEmptied, Bool.not_true, List.filter_false]

theorem blockRestart_resets (s : State) (u : RstUnit) :
    (blockRestart s u).resets = s.resets.filter fun x => x.1 ≠ u := by
  cases u with
  | fpe n => rfl
  | mgp => rfl
  | pws d => rfl
  | svc =>
    have h : (endSessions s fun _ => true).resets = s.resets := by rw [(endSessions_answers s _).frame]
    rw [blockRestart_svc, svcEmptied, h]

/-- The source that reset a unit is one of the A-die (R328). -/
theorem fire_resetTrigger_fired (s : State) (u : RstUnit) (hl : s.ev.length = 18) (hr : s.runs .A = true) :
    (fire s (resetTrigger s u).1 (resetTrigger s u).2.1 (resetTrigger s u).2.2).fired (resetTrigger s u).1 = true := by
  have h : ∃ src : Fin 144, src.val = (resetTrigger s u).1 ∧ Config.blockOf src.val ≠ 3 := by
    rcases u with n | _ | _ | d
    · have h : ∀ n : Fin 4, Config.blockOf (55 + 8 * n.val) ≠ 3 := by decide
      exact ⟨⟨55 + 8 * n.val, by omega⟩, rfl, h n⟩
    · exact ⟨93, rfl, by decide⟩
    · exact ⟨143, rfl, by decide⟩
    · cases d
      · exact ⟨132, rfl, by decide⟩
      · exact ⟨133, rfl, by decide⟩
  obtain ⟨src, hs, hb⟩ := h
  rw [← hs]
  exact fire_fired s src _ _ hl hb hr

/-- The unfinished messages of a port's nodes go with the port's reset. -/
theorem mem_blockRestart_fpe_asm (s : State) (n : Fin 4) (x : Assembly) :
    x ∈ (blockRestart s (.fpe n)).intake.asm ↔ x ∈ s.intake.asm ∧ ∀ w, x.src ≠ .field n w := by
  show x ∈ s.intake.asm.filter _ ↔ _
  rw [List.mem_filter]
  refine and_congr_right fun _ => ?_
  cases x.src <;> simp

end Sys2Proof.Machine

open Sys2Proof Sys2Proof.Machine

/-- Settles O15: a block's reset ends as `blockRestart` says, and SVC's ends every session. -/
theorem settlingAndBlockResetsEnd : Obligations.SettlingAndBlockResetsEnd := by
  intro s u hs
  obtain ⟨hp, hev, -⟩ := hs
  refine ⟨⟨_, rfl, rfl, fun x => ?_⟩, fun h ok => execBlockResetEnd_of_up s u ok h, fun h => ?_, fun h => ?_⟩
  · simp [List.mem_filter]
  · obtain ⟨hu, hv⟩ := unitDown_filter s _ u (blockRestart_resets s u)
    refine ⟨blockRestart s u, execBlockResetEnd_passed s u h, hu, hv, ?_⟩
    cases u with
    | fpe n =>
      refine ⟨rfl, mem_blockRestart_fpe_asm s n, ?_, ?_⟩
      · exact listMod_getD_self s.ports n.val Port.afterReset {} (by omega)
      · intro m hm
        exact listMod_getD_ne s.ports n.val m Port.afterReset {} hm
    | svc =>
      have hc := endSessions_all_ses s
      have hr := endSessions_reacts s fun _ => true
      rw [blockRestart_svc]
      generalize (endSessions s fun _ => true) = s1 at hc hr ⊢
      refine ⟨hc, s1, rfl, hr, ?_⟩
      rw [← hr.intake]
      rfl
    | mgp => rfl
    | pws d => rfl
  · refine ⟨_, execBlockResetEnd_failed s u h, fire_reacts s _ _ _, fun hr => ?_⟩
    have hf := fire_resetTrigger_fired s u hev hr
    rcases u with n | _ | _ | d
    · exact hf
    · exact hf
    · exact hf
    · cases d <;> exact hf

end

section
/-!
SUPPORT. Stores on the bus, from the address to the window's register, the class-N write port, and O42.
-/

namespace Sys2Proof.Machine

/-! ## The bus (R31) -/

/-- An access of the executive reaches the bus while the A-die runs. -/
theorem execRegisterWrite_exec (s : State) (a : Nat) (v : Word) (hr : s.runs .A = true) (ha : a < 2 ^ 24) :
    execRegisterWrite .exec (BitVec.ofNat 24 a) (.write v) s = .next (busPut s .exec a v) := by
  have h : (BitVec.ofNat 24 a).toNat = a := by rw [BitVec.toNat_ofNat, Nat.mod_eq_of_lt ha]
  simp only [execRegisterWrite, ringAccess, ringRuns, hr, ringMay, busAccess, h]
  rfl

/-- A ring that may not act changes nothing by an access. -/
theorem ringAccess_of_stopped (s : State) (r : Ring) (k : Access) (a : BitVec 24) (f : State → State)
    (h : ringRuns s r = false) : ringAccess s r k a f = s := by
  simp [ringAccess, h]

theorem ringAccess_of_allowed (s : State) (r : Ring) (k : Access) (a : BitVec 24) (f : State → State)
    (h : ringRuns s r = true) (hm : ringMay s r k a.toNat = true) : ringAccess s r k a f = f s := by
  simp [ringAccess, h, hm]

theorem within_iff (lo hi a : Nat) : within lo hi a = true ↔ lo ≤ a ∧ a ≤ hi := by simp [within]

/-- A write at an offset of a peripheral window. -/
theorem busPut_window (s : State) (ring : Ring) (w off : Nat) (v : Word) (hw : w ≤ 17) (ho : off < 4096) :
    busPut s ring (windowBase + 4096 * w + off) v = busDone (windowWrite s ring w off v) := by
  have hi : within windowBase 0o77217777 (windowBase + 4096 * w + off) = true := by
    rw [within_iff, windowBase]
    omega
  have hd : (windowBase + 4096 * w + off - windowBase) / 4096 = w := by omega
  have hm : (windowBase + 4096 * w + off) % 4096 = off := by
    simp only [windowBase]
    omega
  rw [busPut, if_pos hi, hd, hm]

/-- The bus completes a write that leaves the core's registers as they were. -/
theorem busDone_of_core {s t : State} (h : t.core = s.core) :
    busDone t = { t with core := { s.core with busErr := false } } := by rw [busDone, h]

/-- A write at an offset of the CORE window. -/
theorem busPut_core (s : State) (ring : Ring) (off : Nat) (v : Word) (ho : off < 4096) :
    busPut s ring (0o77400000 + off) v = busDone (coreRegWrite s off v) := by
  have hn : ¬ within windowBase 0o77217777 (0o77400000 + off) = true := by
    rw [within_iff]
    omega
  have hi : within 0o77400000 0o77407777 (0o77400000 + off) = true := by
    rw [within_iff]
    omega
  have hm : (0o77400000 + off) % 4096 = off := by omega
  rw [busPut, if_neg hn, if_pos hi, hm]

/-- A store of the executive into a peripheral window. -/
theorem execRegisterWrite_window (s : State) (a w off : Nat) (v : Word) (hr : s.runs .A = true)
    (ha : a = windowBase + 4096 * w + off) (hw : w ≤ 17) (ho : off < 4096) :
    execRegisterWrite .exec (BitVec.ofNat 24 a) (.write v) s = .next (busDone (windowWrite s .exec w off v)) := by
  rw [execRegisterWrite_exec s a v hr (by simp only [windowBase] at ha; omega), ha, busPut_window s .exec w off v hw ho]

/-- A store of the executive into the CORE window. -/
theorem execRegisterWrite_core (s : State) (off : Nat) (v : Word) (hr : s.runs .A = true) (ho : off < 4096) :
    execRegisterWrite .exec (BitVec.ofNat 24 (0o77400000 + off)) (.write v) s = .next (busDone (coreRegWrite s off v)) := by
  rw [execRegisterWrite_exec s _ v hr (by omega), busPut_core s .exec off v ho]

/-! ## Windows -/

/-- A block in reset ignores writes (R398). -/
theorem windowWrite_of_down (s : State) (ring : Ring) (w off : Nat) (v : Word) (h : windowDown s w = true) :
    windowWrite s ring w off v = s := if_pos h

/-- The window of a port engine is out while the port is in reset (R328, R398). -/
theorem windowDown_fpe (s : State) (n : Fin 4) : windowDown s (3 + n.val) = s.unitDown (.fpe n) := by
  fin_cases n <;> rfl

/-- A store into a port engine's registers, its event registers apart. -/
theorem windowWrite_fpe (s : State) (ring : Ring) (n : Fin 4) (off : Nat) (v : Word) (hd : s.unitDown (.fpe n) = false)
    (ho : off < 0o6000) : windowWrite s ring (3 + n.val) off v = fpeRegWrite s n.val off v := by
  have he : ¬ ((decide (0o6000 ≤ off) && decide (off ≤ 0o6010)) = true) := by
    simp only [Bool.and_eq_true, decide_eq_true_eq]
    omega
  unfold windowWrite
  rw [windowDown_fpe, hd, if_neg Bool.false_ne_true, if_neg he]
  fin_cases n <;> rfl

/-- A write of PBASE_k waits for FENCE.MEM (R35, R38). -/
theorem coreRegWrite_pbase (s : State) (n : Fin 8) (v : Word) :
    coreRegWrite s (0o100 + 4 * n.val) v =
      { s with core := { s.core with pend := true, pbase := listMod s.core.pbase n.val fun _ => v } } := by
  have hi : (decide (0o100 ≤ 0o100 + 4 * n.val) && decide (0o100 + 4 * n.val < 0o140)) = true := by
    simp only [Bool.and_eq_true, decide_eq_true_eq]
    omega
  have hk : (0o100 + 4 * n.val - 0o100) / 4 = n.val := by omega
  have hm : (0o100 + 4 * n.val) % 4 = 0 := by omega
  simp only [coreRegWrite, hi, hk, hm]
  rw [if_neg (by omega), if_pos trivial]

/-! ## CLEAR (R333) -/

theorem lioCleared_core (s : State) (src : Nat) : (lioCleared s src).core = s.core := by
  unfold lioCleared
  split <;> rfl

theorem clearDo_core (s : State) (b : Nat) (bits : BitVec 16) : (clearDo s b bits).core = s.core := by
  have h : ∀ (l : List Nat) (t : State), (l.foldl (fun s j => lioCleared s (Config.baseOf b + j)) t).core = t.core := by
    intro l
    induction l with
    | nil => exact fun t => rfl
    | cons j l ih => exact fun t => (ih _).trans (lioCleared_core t _)
  rw [clearDo, h, evUnset_frame]

theorem clearWrite_core (s : State) (b : Nat) (v : Word) : (clearWrite s b v).core = s.core := by
  unfold clearWrite
  dsimp only
  split
  · rfl
  · rw [clearDo_core]

/-- A store to a block's CLEAR register is the CLEAR command with what the detectors find (R333, log 43). -/
theorem execEventClear_clearWrite (s : State) (b : Fin 18) (v : Word) (hr : s.runs .A = true) :
    execEventClear b (v.setWidth 16) (Config.detected s.draws) { s with draws := s.draws + 1 }
      = .next (clearWrite s b.val v) := by
  have hc : (!State.runs { s with draws := s.draws + 1 } .A
      || clearRefused { s with draws := s.draws + 1 } b.val (v.setWidth 16) (Config.detected s.draws))
      = clearRefused s b.val (v.setWidth 16) (Config.detected s.draws) := by
    show (!s.runs .A || clearRefused s b.val _ _) = _
    rw [hr]
    rfl
  unfold execEventClear clearWrite
  rw [hc]
  split <;> rfl

/-! ## The class-N write port (R37, R180, R181) -/

theorem classNWrite_of_undeclared (s : State) (v : Word) (h : s.netA.declared s.eva.nwIdx.toNat = false) :
    classNWrite s v = fire { s with eva := { s.eva with nwRes := 3 } } 23 0 (s.eva.nwIdx.setWidth 32) := by
  simp [classNWrite, h]

theorem classNWrite_of_not_partSourced (s : State) (v : Word) (h : s.netA.declared s.eva.nwIdx.toNat = true)
    (hp : s.netA.partSourced s.eva.nwIdx.toNat = false) :
    classNWrite s v = fire { s with eva := { s.eva with nwRes := 2 } } 23 0 (s.eva.nwIdx.setWidth 32) := by
  simp [classNWrite, h, hp]

/-- A class-N value replaces the one that waits for its point. -/
def nwPlaced (p : Nat) (v : Word) (l : List (Nat × BitVec 12)) : List (Nat × BitVec 12) :=
  (l.filter fun x => x.1 ≠ p) ++ [(p, v.setWidth 12)]

/-- Before intake close a value is taken for this tide. -/
theorem classNWrite_of_early (s : State) (v : Word) (h : s.netA.declared s.eva.nwIdx.toNat = true)
    (hp : s.netA.partSourced s.eva.nwIdx.toNat = true) (h0 : s.tide.ph = 0) :
    classNWrite s v = { s with eva := { s.eva with
      nwRes := 1, nwNext := false, nwThis := nwPlaced s.eva.nwIdx.toNat v s.eva.nwThis } } := by
  simp only [classNWrite, h, hp, h0]
  rfl

/-- From intake close on a value is taken for the next tide. -/
theorem classNWrite_of_late (s : State) (v : Word) (h : s.netA.declared s.eva.nwIdx.toNat = true)
    (hp : s.netA.partSourced s.eva.nwIdx.toNat = true) (h0 : s.tide.ph ≠ 0) :
    classNWrite s v = { s with eva := { s.eva with
      nwRes := 1, nwNext := true, nwLater := nwPlaced s.eva.nwIdx.toNat v s.eva.nwLater } } := by
  have hl : decide (s.tide.ph ≠ 0) = true := decide_eq_true h0
  simp only [classNWrite, h, hp, hl, if_pos h0]
  rfl

/-- A write of NW_VAL that the ring's regions allow. -/
theorem execClassNWrite_of_allowed (s : State) (ring : Ring) (v : Word) (hr : ringRuns s ring = true)
    (hm : ringMay s ring .write 0o77027001 = true) : execClassNWrite ring v s = .next (classNWrite s v) :=
  congrArg _ (ringAccess_of_allowed s ring .write 0o77027001 _ hr hm)

/-! ## Single registers -/

theorem periodWrite_eq (s : State) (v : Word) :
    let p : BitVec 3 := v.setWidth 3
    periodWrite s v = if p = 1 ∨ p = 2 ∨ p = 4 then
      { s with tide := { s.tide with perNext := some (p, tideAdd s.now 1) } } else s := by
  refine if_congr ?_ rfl rfl
  simp only [Bool.or_eq_true, decide_eq_true_eq, or_assoc]

theorem fpeRegWrite_oot (s : State) (n : Nat) (v : Word) :
    fpeRegWrite s n 3 v = s.modPort n fun p => { p with oot := v } := rfl

theorem periodWrite_core (s : State) (v : Word) : (periodWrite s v).core = s.core := by
  unfold periodWrite
  dsimp only
  split <;> rfl

end Sys2Proof.Machine

open Sys2Proof Sys2Proof.Machine

/-- Settles O42: a store reaches its window's register, which takes what its access code lets a write set. -/
theorem registerWritesTakeEffect : Obligations.RegisterWritesTakeEffect := by
  intro s v hs quiet put
  obtain ⟨hp, hev, -⟩ := hs
  refine ⟨fun ring a op h => ⟨?_, ?_⟩, fun h => ⟨?_, ?_⟩, fun ring hr hm => ?_, fun hr => ?_⟩
  · exact congrArg _ (ringAccess_of_stopped s ring _ a _ h)
  · exact congrArg _ (ringAccess_of_stopped s ring _ _ _ h)
  · show execRunAheadEnableWrite v s = _
    simp [execRunAheadEnableWrite, h]
  · show execTidePeriodRegisterWrite v s = _
    simp [execTidePeriodRegisterWrite, h]
  · intro p c placed
    have hc : exec c s = .next (classNWrite s v) := execClassNWrite_of_allowed s ring v hr hm
    refine ⟨fun hd => ⟨_, hc, ?_⟩, fun hd hq => ⟨_, hc, ?_⟩, fun hd hq h0 => ?_, fun hd hq h0 => ?_⟩
    · rw [classNWrite_of_undeclared s v hd]
      exact fire_fires _ ⟨23, by decide⟩ _ _ hev
    · rw [classNWrite_of_not_partSourced s v hd hq]
      exact fire_fires _ ⟨23, by decide⟩ _ _ hev
    · exact hc.trans (congrArg _ (classNWrite_of_early s v hd hq h0))
    · exact hc.trans (congrArg _ (classNWrite_of_late s v hd hq h0))
  · intro p ctrl period
    have hw : ∀ a w off, a = windowBase + 4096 * w + off → w ≤ 17 → off < 4096 →
        exec (put a) s = .next (busDone (windowWrite s .exec w off v)) := fun a w off => execRegisterWrite_window s a w off v hr
    have hcore : ∀ off, off < 4096 → exec (put (0o77400000 + off)) s = .next (busDone (coreRegWrite s off v)) :=
      fun off => execRegisterWrite_core s off v hr
    have hperiod : periodWrite s v = period := periodWrite_eq s v
    refine ⟨?_, ?_, ?_, ?_, ?_, fun n => ?_, fun n hd o ho => ?_, fun n hd => ?_, ?_, ?_, ?_⟩
    · show execRunAheadEnableWrite v s = _
      rw [execRunAheadEnableWrite, if_pos hr]
      rfl
    · show execTidePeriodRegisterWrite v s = _
      rw [execTidePeriodRegisterWrite, if_pos hr, hperiod]
    · exact hw 0o77020000 2 0 rfl (by omega) (by omega)
    · rw [hw 0o77000000 0 0 rfl (by omega) (by omega), ← hperiod]
      exact congrArg _ (busDone_of_core (periodWrite_core s v))
    · exact hcore 0 (by omega)
    · rw [show 0o77400100 + 4 * n.val = 0o77400000 + (0o100 + 4 * n.val) by omega, hcore _ (by omega), coreRegWrite_pbase]
      rfl
    · rw [hw _ (3 + n.val) o (by simp only [windowBase]; omega) (by omega) ho,
        windowWrite_of_down s .exec _ o v ((windowDown_fpe s n).trans hd)]
      rfl
    · rw [hw _ (3 + n.val) 3 (by simp only [windowBase]; omega) (by omega) (by omega),
        windowWrite_fpe s .exec n 3 v hd (by omega), fpeRegWrite_oot]
      refine ⟨_, rfl, listMod_getD_self s.ports n.val _ {} (by omega), fun m hm => ?_, rfl⟩
      exact listMod_getD_ne s.ports n.val m.val _ {} fun e => hm (Fin.ext e)
    · exact hw 0o77070006 7 6 rfl (by omega) (by omega)
    · refine ⟨Config.detected s.draws, clearWrite s 0 v, execEventClear_clearWrite s 0 v hr, ?_⟩
      rw [hw 0o77006010 0 0o6010 rfl (by omega) (by omega)]
      exact congrArg _ (busDone_of_core (clearWrite_core s 0 v))
    · refine ⟨_, hw 0o77006001 0 0o6001 rfl (by omega) (by omega), ?_, fun b hb => ?_, rfl⟩
      · exact State.modEv_evOf_self s 0 _ (by omega)
      · exact State.modEv_evOf_ne s 0 b _ hb

end

section
/-!
SUPPORT. IEEE 1588: on which lanes a message leaves, what its sending counts, and O18.
-/

namespace Sys2Proof.Machine

/-! ## A change of several ports -/

/-- The same change of one port after another: each port named once takes it, no other port changes. -/
theorem foldl_modPort (f : Port → Port) (ls : List (Fin 4 × Lane)) (s : State) (hn : (ls.map Prod.fst).Nodup)
    (hl : s.ports.length = 4) :
    let t := ls.foldl (fun s x => s.modPort x.1.val f) s
    t = { s with ports := t.ports } ∧ t.ports.length = 4
      ∧ ∀ p : Fin 4, t.port p.val = if p ∈ ls.map Prod.fst then f (s.port p.val) else s.port p.val := by
  induction ls generalizing s with
  | nil => exact ⟨rfl, hl, fun p => rfl⟩
  | cons x ls ih =>
    rw [List.map_cons, List.nodup_cons] at hn
    obtain ⟨hx, hn⟩ := hn
    obtain ⟨ht, hlen, hp⟩ := ih (s.modPort x.1.val f) hn (by simpa using hl)
    refine ⟨ht, hlen, fun p => (hp p).trans ?_⟩
    by_cases h : p = x.1
    · subst h
      rw [if_neg hx, if_pos (by simp)]
      exact listMod_getD_self s.ports _ f {} (by omega)
    · have hs : (s.modPort x.1.val f).port p.val = s.port p.val :=
        listMod_getD_ne s.ports _ _ f {} fun e => h (Fin.ext e)
      simp only [hs, List.map_cons, List.mem_cons, h, false_or]

/-! ## Lanes -/

theorem mem_fieldLanes (x : Fin 4 × Lane) : x ∈ fieldLanes := by
  obtain ⟨p, l⟩ := x
  cases l <;> simp [fieldLanes]

theorem fieldLanes_nodup : fieldLanes.Nodup := by decide

/-- Of lanes named once each, those of kind A lie on different ports. -/
theorem laneA_nodup (ls : List (Fin 4 × Lane)) (h : ls.Nodup) :
    ((ls.filter fun x => x.2 = .A).map Prod.fst).Nodup := by
  refine (h.filter _).map_on fun x hx y hy e => Prod.ext e ?_
  have hxa : x.2 = .A := by simpa using (List.mem_filter.mp hx).2
  have hya : y.2 = .A := by simpa using (List.mem_filter.mp hy).2
  exact hxa.trans hya.symm

theorem mem_laneA (ls : List (Fin 4 × Lane)) (p : Fin 4) :
    p ∈ (ls.filter fun x => x.2 = .A).map Prod.fst ↔ (p, Lane.A) ∈ ls := by
  simp only [List.mem_map, List.mem_filter, decide_eq_true_eq]
  constructor
  · rintro ⟨⟨q, l⟩, ⟨hm, rfl⟩, rfl⟩
    exact hm
  · exact fun h => ⟨_, ⟨h, rfl⟩, rfl⟩

theorem ptpRuns_iff (s : State) : ptpRuns s = true ↔ s.runs .A = true ∧ s.stopsSending = false
    ∧ (s.mode = .translate ∨ s.mode = .enrol ∨ s.mode = .live) := by
  simp only [ptpRuns, Bool.and_eq_true, Bool.or_eq_true, Bool.not_eq_true', decide_eq_true_eq, and_assoc, or_assoc]

/-- The lanes that a message may start on (R60, R251, R397, R398). -/
theorem mem_ptpLanes_iff (s : State) (p : Fin 4) (l : Lane) : (p, l) ∈ ptpLanes s ↔ s.tide.ph ≠ 5 ∧ s.runs .A = true
    ∧ s.stopsSending = false ∧ (s.mode = .translate ∨ s.mode = .enrol ∨ s.mode = .live) ∧ (s.port p.val).up l = true
    ∧ s.unitDown (.fpe p) = false := by
  rw [← and_assoc (a := s.stopsSending = false), ← and_assoc (a := s.runs .A = true), ← ptpRuns_iff]
  unfold ptpLanes
  cases ptpRuns s
  · simp
  · by_cases h : s.tide.ph = 5
    · simp [h]
    · have h5 : ¬ s.tide.ph = 5#3 := h
      simp [h5, mem_fieldLanes]

theorem ptpLanes_nodup (s : State) : (ptpLanes s).Nodup := by
  unfold ptpLanes
  split
  · exact List.nodup_nil
  · exact fieldLanes_nodup.filter _

/-! ## Messages -/

/-- What sending a message on some lanes changes: what has left, and the counts of lane A (R237). -/
theorem ptpOn_sends (s : State) (ls : List (Fin 4 × Lane)) (m : Ptp) (hn : ls.Nodup) (hl : s.ports.length = 4) :
    let t := ptpOn s ls m
    t = { s with ports := t.ports, tx := t.tx } ∧ t.tx = s.tx ++ ls.map (fun x => Tx.ptp (.field x.1 x.2) (ptpHead s) m)
      ∧ ∀ p : Fin 4, t.port p.val
        = if (p, Lane.A) ∈ ls then { s.port p.val with txNow := sat18 (s.port p.val).txNow } else s.port p.val := by
  obtain ⟨ht, -, hp⟩ := foldl_modPort (fun p => { p with txNow := sat18 p.txNow }) (ls.filter fun x => x.2 = .A)
    (s.sendAll (ls.map fun x => .ptp (.field x.1 x.2) (ptpHead s) m)) (laneA_nodup ls hn) hl
  intro t
  replace ht : t = { s.sendAll (ls.map fun x => .ptp (.field x.1 x.2) (ptpHead s) m) with ports := t.ports } := ht
  have htx : t.tx = s.tx ++ ls.map (fun x => Tx.ptp (.field x.1 x.2) (ptpHead s) m) := by rw [ht]; rfl
  refine ⟨?_, htx, fun p => (hp p).trans ?_⟩
  · rw [htx]
    exact ht
  · simp only [mem_laneA]
    rfl

/-- A delay request is answered on its own lane, where that may carry the answer. -/
theorem execPtpDelayReqReceived_eq (s : State) (p : Fin 4) (l : Lane) (i : BitVec 80) (q : BitVec 16) :
    execPtpDelayReqReceived p l i q s
      = .next (ptpOn s (if (p, l) ∈ ptpLanes s then [(p, l)] else []) (.delayResp i q)) := by
  unfold execPtpDelayReqReceived
  simp only [List.contains_iff_mem]
  split
  · rfl
  · simp [ptpOn, State.sendAll]

/-- PTP time where the tide starts (R67). -/
theorem ptpTime_of_tick_zero (s : State) (h : s.tide.tick = 0) : ptpTime s = s.now.toNat * s.per * 1000000 := by
  have e : (s.now.toNat * 4096 + 0) * s.per * 1000000 = s.now.toNat * s.per * 1000000 * 4096 := by ring
  rw [ptpTime, h, show (0 : BitVec 12).toNat = 0 from rfl, e, Nat.mul_div_cancel _ (by omega)]

theorem execHawserSyncSend_of_leader (s : State) (hr : s.twin.role = .leader) (hp : ptpRuns s = true)
    (h5 : s.tide.ph ≠ 5) :
    execHawserSyncSend s = .next (s.sendAll
      (([Lane.A, Lane.B].filter s.twin.up).map fun l => .ptp (.hawser l) (ptpHead s) (.sync (-7)))) := by
  rw [execHawserSyncSend, hp, decide_eq_true hr, decide_eq_true h5]
  rfl

theorem execHawserSyncSend_of_other (s : State) (h : s.twin.role ≠ .leader ∨ ptpRuns s = false ∨ s.tide.ph = 5) :
    execHawserSyncSend s = .next s := by
  rcases h with h | h | h <;> simp [execHawserSyncSend, h]

/-- TIDE.TWOFF shows an offset that its signed 18 bits hold (R75). -/
theorem twoffOf_of_fits (off : Int) (hl : -131072 ≤ off) (hh : off ≤ 131071) : twoffOf off = BitVec.ofInt 18 off := by
  simp [twoffOf, hl, hh]

end Sys2Proof.Machine

open Sys2Proof Sys2Proof.Machine

/-- Settles O18: every message goes through `ptpOn`, on the lanes of `ptpLanes` or on the one it answers on. -/
theorem ptpMessagesLeave : Obligations.PtpMessagesLeave := by
  intro s hs head
  obtain ⟨hp, hev, -⟩ := hs
  refine ⟨?_, mem_ptpLanes_iff s, ptpTime_of_tick_zero s, rfl, execHawserSyncSend_of_leader s,
    execHawserSyncSend_of_other s, fun off => ⟨fun hr hf => ?_, fun h => ?_⟩⟩
  · rintro c m ls (⟨rfl, rfl, rfl⟩ | ⟨rfl, rfl, rfl⟩ | ⟨p, l, i, q, rfl, rfl, rfl⟩)
    · exact ⟨_, rfl, ptpOn_sends s _ _ (ptpLanes_nodup s) hp⟩
    · exact ⟨_, rfl, ptpOn_sends s _ _ (ptpLanes_nodup s) hp⟩
    · refine ⟨_, execPtpDelayReqReceived_eq s p l i q, ptpOn_sends s _ _ ?_ hp⟩
      split <;> simp
  · refine ⟨_, twoffOf off, ?_, twoffOf_of_fits off, fireIf_firesIf _ _ ⟨5, by decide⟩ hev⟩
    show execHawserSyncReceived off s = _
    simp [execHawserSyncReceived, hr, hf]
  · show execHawserSyncReceived off s = _
    rcases h with h | h <;> simp [execHawserSyncReceived, h]

end

section
/-!
SUPPORT. Requests: the stored RESPONSE of a completed request of a session that lasts, and a WRITE that has passed the stages
of R284, said once for every entry rule.
-/

namespace Sys2Proof.Machine

/-! ## Records -/

/-- A record changes the recorder alone. -/
theorem recMake_frame (s : State) (kind : Nat) (bd : Bool) (pay cont : Octets) :
    ∃ r, recMake s kind bd pay cont = { s with rcd := r } := by
  unfold recMake recAdd
  split
  · exact ⟨s.rcd, rfl⟩
  · exact ⟨_, rfl⟩

theorem recDict_frame (s : State) (k lvl path : Nat) (q : Req) (status : Nat) :
    ∃ r, recDict s k lvl path q status = { s with rcd := r } := recMake_frame s _ _ _ _

theorem recDict_answers (s : State) (k lvl path : Nat) (q : Req) (status : Nat) :
    Answers s (recDict s k lvl path q status) := recMake_answers s _ _ _ _

@[simp] theorem recDict_slot (s : State) (k lvl path : Nat) (q : Req) (status j r : Nat) :
    (recDict s k lvl path q status).slot j r = s.slot j r := by
  obtain ⟨x, h⟩ := recDict_frame s k lvl path q status
  rw [h]
  rfl

@[simp] theorem recDict_lasts (s : State) (k lvl path : Nat) (q : Req) (status : Nat) (j : Fin 8) :
    (recDict s k lvl path q status).lasts j = s.lasts j := by
  obtain ⟨x, h⟩ := recDict_frame s k lvl path q status
  rw [h]
  rfl

@[simp] theorem recDict_now (s : State) (k lvl path : Nat) (q : Req) (status : Nat) :
    (recDict s k lvl path q status).now = s.now := by
  obtain ⟨x, h⟩ := recDict_frame s k lvl path q status
  rw [h]
  rfl

/-! ## Sessions and slots -/

/-- The changed session. -/
theorem State.modSes_ses_self (s : State) (k : Nat) (f : Session → Session) : (s.modSes k f).ses k = (s.ses k).map f := by
  by_cases h : k < s.svc.ses.length
  · exact listMod_getD_self s.svc.ses k _ none h
  · have hm : (s.modSes k f).ses k = none := List.getD_eq_default _ _ (by simpa using Nat.le_of_not_lt h)
    have hs : s.ses k = none := List.getD_eq_default _ _ (Nat.le_of_not_lt h)
    rw [hm, hs]
    rfl

/-- A change that leaves a session's slots leaves each of them. -/
theorem State.modSes_slot (s : State) (k r : Nat) (f : Session → Session) (hf : ∀ x, (f x).slots = x.slots) :
    (s.modSes k f).slot k r = s.slot k r := by
  unfold State.slot
  rw [State.modSes_ses_self]
  cases s.ses k with
  | none => rfl
  | some x => exact congrArg (fun l => l.getD r none) (hf x)

/-- A change that leaves a session's counter leaves what it can still send. -/
theorem State.modSes_lasts (s : State) (k : Fin 8) (f : Session → Session) (hf : ∀ x, (f x).txCnt = x.txCnt) :
    (s.modSes k.val f).lasts k = s.lasts k := by
  unfold State.lasts
  rw [State.modSes_ses_self]
  cases s.ses k.val with
  | none => rfl
  | some x => simp [hf]

/-- A slot that holds a request holds what is put into it. -/
theorem State.setSlot_slot (s : State) (k r : Nat) (sl x : Slot) (h : s.slot k r = some x) :
    (s.setSlot k r sl).slot k r = some sl := by
  unfold State.slot State.setSlot at *
  rw [State.modSes_ses_self]
  cases hs : s.ses k with
  | none => rw [hs] at h; exact absurd h (by simp)
  | some y =>
    rw [hs] at h
    have hl : r < y.slots.length := by
      by_contra hn
      have h0 : y.slots.getD r none = none := List.getD_eq_default _ _ (Nat.le_of_not_lt hn)
      have h1 : y.slots.getD r none = some x := h
      rw [h0] at h1
      exact absurd h1 (by simp)
    exact listMod_getD_self y.slots r _ none hl

/-- A message on its way changes no session. -/
theorem svcOut_ses (s : State) (c : Client) (msg : Octets) (note : Option (Fin 8)) (k : Nat) :
    (svcOut s c msg note).ses k = s.ses k := by
  unfold svcOut
  split
  · rfl
  · rfl
  · rfl
  · split <;> rfl

/-- A message put out leaves the session's slots. -/
theorem sesPut_slot (s : State) (k : Fin 8) (typ : Nat) (body : Octets) (r : Nat) :
    (sesPut s k typ body).slot k.val r = s.slot k.val r := by
  unfold sesPut
  split
  · rfl
  · split
    · rfl
    · unfold State.slot
      rw [svcOut_ses]
      exact State.modSes_slot s k.val r _ fun _ => rfl

/-- A session that lasts has counter values left after a message (R279). -/
theorem sesSpent_sesPut (s : State) (k : Fin 8) (typ : Nat) (body : Octets) (h : s.lasts k = true) :
    sesSpent (sesPut s k typ body) k = false := by
  cases hx : s.ses k.val with
  | none => simp [sesPut, sesSpent, hx]
  | some x =>
    have hl : x.txCnt.toNat + 1 < 0xFFFFFFFF := by simpa [State.lasts, hx] using h
    have h1 : (x.txCnt + 1).toNat ≠ 0xFFFFFFFF := by
      rw [BitVec.toNat_add_of_lt (by simp; omega)]
      simp
      omega
    simp only [sesPut, sesSpent, hx]
    split
    · simp [hx]
      omega
    · rw [svcOut_ses, State.modSes_ses_self, hx]
      simpa using h1

/-- The slot of a completed request holds its RESPONSE (R283). -/
theorem slotDone_slot (s : State) (k : Fin 8) (r status : Nat) (tx ift : Tide) (data : Octets) (sl : Slot)
    (h : s.slot k.val r = some sl) : (slotDone s k r status tx ift data).slot k.val r
      = some { sl with st := .done, ift := ift, resp := respBody sl.req status tx ift data } := by
  simp only [slotDone, h]
  rw [sesPut_slot]
  exact State.setSlot_slot s _ _ _ _ h

theorem complete_of_lasts (s : State) (k : Fin 8) (r status : Nat) (tx ift : Tide) (data : Octets)
    (h : s.lasts k = true) : complete s k r status tx ift data = slotDone s k r status tx ift data := by
  refine if_neg ?_
  rw [Bool.not_eq_true]
  unfold slotDone
  split
  · next hs =>
    cases hx : s.ses k.val with
    | none => simp [sesSpent, hx]
    | some x =>
      have hl : x.txCnt.toNat + 1 < 0xFFFFFFFF := by simpa [State.lasts, hx] using h
      simp [sesSpent, hx]
      omega
  · exact sesSpent_sesPut _ k _ _ ((State.modSes_lasts s k _ (by exact fun _ => rfl)).trans h)

/-- A request that completes answers with its status and value (R283 to R286). -/
theorem finish_responds (s : State) (k : Fin 8) (r : Fin 16) (status : Nat) (data : Octets) (sl : Slot)
    (hl : s.lasts k = true) (hs : s.slot k.val r.val = some sl) :
    (finish s k r status data).responds k r sl.req status data := by
  have hn : (finish s k r status data).now = s.now := by
    have h := (complete_answers s k r.val status s.now s.now data).frame
    unfold State.now finish
    rw [h]
  refine ⟨{ sl with st := .done, ift := s.now, resp := respBody sl.req status s.now s.now data }, ?_, rfl, rfl, ?_⟩
  · rw [finish, complete_of_lasts s k _ _ _ _ _ hl]
    exact slotDone_slot s k _ _ _ _ _ sl hs
  · rw [hn]

/-! ## WRITE (R284, R285) -/

/-- What a WRITE that has passed the stages before its entry's rule is. -/
theorem mayWriteNow_iff (s : State) (k : Fin 8) (r : Fin 16) (e : Nat) (sl : Slot) : s.mayWriteNow k r e sl = true ↔
    readyOp s k r 1 = some sl ∧ sl.req.entry.toNat = e ∧ earlyStatus s sl.req = 0 ∧ rightCodes s k e sl.req.data = [] := by
  simp only [State.mayWriteNow, Bool.and_eq_true, decide_eq_true_eq, and_assoc]

theorem slot_of_readyOp {s : State} {k : Fin 8} {r : Fin 16} {op : Byte} {sl : Slot} (h : readyOp s k r op = some sl) :
    s.slot k.val r.val = some sl := by
  unfold readyOp at h
  split at h
  · exact (Option.filter_eq_some_iff.mp h).1
  · exact absurd h (by simp)

/-- The WRITE executes under the rule of its entry. -/
theorem writeEntry_of_mayWriteNow {s : State} {k : Fin 8} {r : Fin 16} {e : BitVec 24} {sl : Slot}
    (h : s.mayWriteNow k r e.toNat sl = true) (p : Octets → Bool) (hp : p sl.req.data = true) (he : e ≠ 0o076020) :
    writeEntry s k r e p = writeBy s k r sl (entryRule s k r sl e.toNat sl.req.index.toNat sl.req.data) := by
  obtain ⟨hr, hn, -, -⟩ := (mayWriteNow_iff s k r _ sl).mp h
  have hq : sl.req.entry = e := BitVec.eq_of_toNat_eq hn
  have hw : readyWrite s k r (fun q => q.entry = e && p q.data) = some sl := by
    rw [readyWrite, hr]
    simp [hq, hp]
  simp only [writeEntry, hw, writeSlot, hq, if_neg he]

/-- The rule finds codes against the WRITE: it is refused with the lowest. -/
theorem writeBy_of_refused {s : State} {k : Fin 8} {r : Fin 16} {e : Nat} {sl : Slot} (h : s.mayWriteNow k r e sl = true)
    (rule : WOut) (hc : rule.codes ≠ []) : writeBy s k r sl rule = finish (recDict s k.val (s.sesLevel k.val)
      (s.sesPath k.val) sl.req (lowest rule.codes)) k r (lowest rule.codes) [] := by
  obtain ⟨-, hn, hf, hg⟩ := (mayWriteNow_iff s k r _ sl).mp h
  simp [writeBy, hf, hn, hg, hc]

/-- The rule finds nothing against the WRITE: it takes effect. -/
theorem writeBy_of_allowed {s : State} {k : Fin 8} {r : Fin 16} {e : Nat} {sl : Slot} (h : s.mayWriteNow k r e sl = true)
    (rule : WOut) (hc : rule.codes = []) : writeBy s k r sl rule = writeDone (recDict rule.st k.val (s.sesLevel k.val)
      (s.sesPath k.val) sl.req 0) k r sl rule.ift := by
  obtain ⟨-, hn, hf, hg⟩ := (mayWriteNow_iff s k r _ sl).mp h
  simp [writeBy, hf, hn, hg, hc]

/-- A refused WRITE answers with the lowest code of its rule and changes nothing else. -/
theorem responds_of_refused {s : State} {k : Fin 8} {r : Fin 16} {e : Nat} {sl : Slot} {c : Instr} {rule : WOut}
    (h : s.mayWriteNow k r e sl = true) (hl : s.lasts k = true) (hx : exec c s = .next (writeBy s k r sl rule))
    {status : Nat} (hc : lowest rule.codes = status) (h0 : status ≠ 0) : Responds c s k r sl.req status [] := by
  obtain ⟨hr, -⟩ := (mayWriteNow_iff s k r _ sl).mp h
  rw [writeBy_of_refused h rule fun hn => h0 (by rw [← hc, hn]; rfl), hc] at hx
  refine ⟨_, hx, (recDict_answers s _ _ _ _ _).trans (complete_answers _ _ _ _ _ _ _), finish_responds _ _ _ _ _ _ ?_ ?_⟩
  · rw [recDict_lasts, hl]
  · rw [recDict_slot, slot_of_readyOp hr]

/-- A WRITE that has taken effect and whose session lasts completes, or waits until it is in force. -/
theorem writeDone_answers (s : State) (k : Fin 8) (r : Fin 16) (sl : Slot) (ift : Tide) :
    Answers s (writeDone s k r sl ift) := by
  unfold writeDone
  extract_lets s1
  have h1 : Answers s s1 := modSes_answers s k.val _
  split
  · exact h1.trans (setSlot_answers _ _ _ _)
  · exact h1.trans (complete_answers _ _ _ _ _ _ _)

theorem writeDone_slot (s : State) (k : Fin 8) (r : Fin 16) (sl : Slot) (ift : Tide) (hl : s.lasts k = true)
    (hs : s.slot k.val r.val = some sl) :
    let t := writeDone s k r sl ift
    if sl.req.fence && !reached s.now ift then t.slot k.val r.val = some { sl with st := .inForceAt s.now ift, ift := ift }
      else ∃ x, t.slot k.val r.val = some x ∧ x.st = .done ∧ x.req = sl.req ∧ x.resp = respBody sl.req 0 s.now ift [] := by
  intro t
  unfold t writeDone
  extract_lets s1
  have h1 : s1.slot k.val r.val = some sl := (State.modSes_slot s k.val r.val _ (by exact fun _ => rfl)).trans hs
  have h2 : s1.lasts k = true := (State.modSes_lasts s k _ (by exact fun _ => rfl)).trans hl
  clear_value s1
  by_cases hf : (sl.req.fence && !reached s.now ift) = true
  · rw [if_pos hf, if_pos hf]
    exact State.setSlot_slot s1 _ _ _ _ h1
  · rw [if_neg hf, if_neg hf]
    rw [complete_of_lasts s1 k _ _ _ _ _ h2]
    exact ⟨_, slotDone_slot s1 k _ _ _ _ _ sl h1, rfl, rfl, rfl⟩

/-- A WRITE that its rule allows, where the rule leaves the session and the tide number, executes. -/
theorem executes_of_allowed {s : State} {k : Fin 8} {r : Fin 16} {e : Nat} {sl : Slot} {c : Instr} {rule : WOut}
    (h : s.mayWriteNow k r e sl = true) (hl : s.lasts k = true) (hx : exec c s = .next (writeBy s k r sl rule))
    (hc : rule.codes = []) (hses : rule.st.ses k.val = s.ses k.val) (hnow : rule.st.now = s.now) :
    Executes c s k r sl rule.st rule.ift := by
  obtain ⟨hr, -⟩ := (mayWriteNow_iff s k r _ sl).mp h
  rw [writeBy_of_allowed h rule hc] at hx
  have hs : rule.st.slot k.val r.val = some sl := by
    unfold State.slot
    rw [hses]
    exact slot_of_readyOp hr
  have hl' : rule.st.lasts k = true := by
    unfold State.lasts
    rw [hses]
    exact hl
  refine ⟨_, hx, (recDict_answers _ _ _ _ _ _).trans (writeDone_answers _ _ _ _ _), ?_⟩
  have hd := writeDone_slot (recDict rule.st k.val (s.sesLevel k.val) (s.sesPath k.val) sl.req 0) k r sl rule.ift
    (by rw [recDict_lasts, hl']) (by rw [recDict_slot, hs])
  simp only [recDict_now, hnow] at hd
  exact hd

/-! ## The tide period, power and node entries -/

/-- The codes of TIDE_PERIOD on its value, and on the role (R45, R257). -/
theorem writePeriod_codes (s : State) (v : Nat) : (writePeriod s v).codes =
    codeIf (!(decide (v = 1) || decide (v = 2) || decide (v = 4)) || !periodFits s v) 8
      ++ codeIf (decide (s.twin.role ≠ .solo) && decide (s.twin.role ≠ .leader)) 9 := by
  unfold writePeriod
  dsimp only
  split <;> rfl

theorem stageRetry_of_failed (s : State) (side : Die) (h5 : s.pws.stage side = 5) (hf : s.pws.feedOk side = true) :
    stageRetry s side = { s with pws := s.pws.setStage side 1 } := by
  refine if_pos ?_
  rw [decide_eq_true h5, hf]
  rfl

/-- POWER_RETRY names stage A by 1 and stage B by 2. -/
def retryValue : Die → Nat
  | .A => 1
  | .B => 2

theorem writeRetry_of_value (s : State) (side : Die) : writeRetry s (retryValue side)
    = .atOnce (codeIf (!(decide (s.pws.stage side = 5) && s.pws.feedOk side)) 8) (stageRetry s side) := by
  cases side <;> rfl

end Sys2Proof.Machine

open Sys2Proof Sys2Proof.Machine

/-- Settles O34: each entry's command is a WRITE under the entry's rule, which finds codes or says what the write does. -/
theorem tidePowerAndNodeWrites : Obligations.TidePowerAndNodeWrites := by
  intro s k r sl hl d v per i
  refine ⟨fun h => ?_, fun h => ?_, fun h => ?_, fun h => ?_, fun h => ?_⟩
  · intro ok t
    have hx : exec (.tidePeriodWrite k r) s = .next (writeBy s k r sl (writePeriod s v)) :=
      congrArg _ (writeEntry_of_mayWriteNow (e := 0o020000) h anyValue rfl (by decide))
    have hok : ok ↔ (!(decide (v = 1) || decide (v = 2) || decide (v = 4)) || !periodFits s v) = false := by
      simp only [ok, Bool.or_eq_false_iff, Bool.not_eq_false', Bool.or_eq_true, decide_eq_true_eq, or_assoc]
    have hc := writePeriod_codes s v
    refine ⟨fun hn => ?_, fun hk hs hr => ?_, fun hk hs => ?_, fun hk hr => ?_⟩
    · rw [hok, Bool.not_eq_false] at hn
      rw [hn] at hc
      refine responds_of_refused h hl hx ?_ (by decide)
      rw [hc]
      cases (decide (s.twin.role ≠ .solo) && decide (s.twin.role ≠ .leader)) <;> rfl
    · rw [hok.mp hk, decide_eq_true hs, decide_eq_true hr] at hc
      exact responds_of_refused h hl hx (by rw [hc]; rfl) (by decide)
    · have hw : writePeriod s v = .atBoundary []
          { s with tide := { s.tide with perNext := some (per, tideAdd s.now 1) } } := by
        rw [hok.mp hk, hs] at hc
        simp only [writePeriod, hs] at hc ⊢
        exact congrArg (WOut.atBoundary · _) hc
      rw [hw] at hx
      exact executes_of_allowed h hl hx rfl rfl rfl
    · have hw : writePeriod s v = { codes := [], ift := t, st :=
          { s with tide := { s.tide with perNext := some (per, t) }, twin := { s.twin with pper := per, ptide := t } } } := by
        rw [hok.mp hk, hr] at hc
        simp only [writePeriod, hr] at hc ⊢
        exact congrArg (WOut.mk · _ _) hc
      rw [hw] at hx
      exact executes_of_allowed h hl hx rfl rfl rfl
  · have hx : exec (.tideBudgetReportClear k r) s = .next (writeBy s k r sl (writeBudget s)) :=
      congrArg _ (writeEntry_of_mayWriteNow (e := 0o020002) h anyValue rfl (by decide))
    exact executes_of_allowed h hl hx rfl rfl rfl
  · have hx : exec (.powerRetry k r) s = .next (writeBy s k r sl (writeRetry s v)) :=
      congrArg _ (writeEntry_of_mayWriteNow (e := 0o120001) h anyValue rfl (by decide))
    refine ⟨fun side hv => ?_, fun h1 h2 => ?_⟩
    · replace hv : v = retryValue side := hv.trans (by cases side <;> rfl)
      rw [hv, writeRetry_of_value] at hx
      refine ⟨fun h5 hf => ?_, fun hn => responds_of_refused h hl hx ?_ (by decide)⟩
      · rw [stageRetry_of_failed s side h5 hf, decide_eq_true h5, hf] at hx
        exact executes_of_allowed h hl hx rfl rfl rfl
      · have hb : (decide (s.pws.stage side = 5) && s.pws.feedOk side) = false := by
          rcases hn with h5 | hf
          · rw [decide_eq_false h5, Bool.false_and]
          · rw [hf, Bool.and_false]
        rw [hb]
        rfl
    · exact responds_of_refused h hl hx (by simp [writeRetry, WOut.atOnce, h1, h2, codeIf, lowest]) (by decide)
  · have hx : exec (.standbyTestNow k r) s = .next (writeBy s k r sl (writeTestNow s v)) :=
      congrArg _ (writeEntry_of_mayWriteNow (e := 0o120003) h anyValue rfl (by decide))
    have hc : (writeTestNow s v).codes = codeIf (decide (v ≠ 1)) 8 := rfl
    refine ⟨fun h1 => ?_, fun h1 => ?_⟩
    · exact executes_of_allowed h hl hx (by rw [hc, decide_eq_false (not_not_intro h1)]; rfl) rfl rfl
    · exact responds_of_refused h hl hx (by rw [hc, decide_eq_true h1]; rfl) (by decide)
  · have hx : exec (.nodeReenrol k r) s = .next (writeBy s k r sl (writeReenrol s i v)) :=
      congrArg _ (writeEntry_of_mayWriteNow (e := 0o040020) h anyValue rfl (by decide))
    have hc : (writeReenrol s i v).codes = codeIf (decide (v ≠ 1) || !decide (i < s.netA.nnode)) 8 := rfl
    refine ⟨fun hn => responds_of_refused h hl hx ?_ (by decide), fun h1 hi hlen => ?_⟩
    · have hb : (decide (v ≠ 1) || !decide (i < s.netA.nnode)) = true := by simpa using hn
      rw [hc, hb]
      rfl
    · have hb : (decide (v ≠ 1) || !decide (i < s.netA.nnode)) = false := by simp [h1, hi]
      exact ⟨_, executes_of_allowed h hl hx (by rw [hc, hb]; rfl) rfl rfl, rfl, listMod_length _ _ _,
        listMod_getD_self s.nodes i _ {} hlen, fun m hm => listMod_getD_ne s.nodes i m _ {} hm⟩

end

section
/-!
SUPPORT. What a firing keeps beyond `Reacts`: a decision to moor stands, the groups an overrun found change by an overrun alone,
the groups of the comparison by a finding of it alone; and `Reacts` beside a change of the tide's own registers.
-/

namespace Sys2Proof.Machine

/-! ## What stands through a firing -/

/-- Decisions to moor stand; where f holds, so do the groups found incomplete, and where c holds those of the comparison. -/
structure Firm (f c : Prop) (s t : State) : Prop where
  found : f → ∀ d, (t.die d).found = (s.die d).found
  cmpG : c → t.moor.cmpG = s.moor.cmpG
  pendM : s.moor.pendM = true → t.moor.pendM = true
  mooring : ∀ d, (s.die d).mooring = true → (t.die d).mooring = true

theorem Firm.refl (f c : Prop) (s : State) : Firm f c s s := ⟨fun _ _ => rfl, fun _ => rfl, id, fun _ => id⟩

theorem Firm.trans {f c : Prop} {s t u : State} (h : Firm f c s t) (g : Firm f c t u) : Firm f c s u where
  found hf d := (g.found hf d).trans (h.found hf d)
  cmpG hc := (g.cmpG hc).trans (h.cmpG hc)
  pendM hp := g.pendM (h.pendM hp)
  mooring d hd := g.mooring d (h.mooring d hd)

/-- A change that leaves both dies and the moor sets. -/
theorem Firm.of_eq (f c : Prop) {s t : State} (ha : t.a = s.a) (hb : t.b = s.b) (hm : t.moor = s.moor) : Firm f c s t := by
  have hd : ∀ d, t.die d = s.die d := fun d => by cases d <;> assumption
  exact ⟨fun _ d => by rw [hd], fun _ => by rw [hm], by rw [hm]; exact id, fun d => by rw [hd]; exact id⟩

theorem Answers.firm (f c : Prop) {s t : State} (h : Answers s t) : Firm f c s t := by
  have hf := h.frame
  exact .of_eq f c (by rw [hf]) (by rw [hf]) (by rw [hf])

theorem modEv_firm (f c : Prop) (s : State) (b : Nat) (g : EvBlock → EvBlock) : Firm f c s (s.modEv b g) :=
  .of_eq f c (by simp) (by simp) (by simp)

theorem evSet_firm (f c : Prop) (s : State) (src : Nat) (gs : GSet) (subj : BitVec 32) (bd : Bool) :
    Firm f c s (evSet s src gs subj bd) := by
  unfold evSet evSetAt
  extract_lets b j cq e s1
  have h : Firm f c s s1 := modEv_firm f c s _ _
  split
  · exact h
  · exact h.trans ((recMake_answers _ _ _ _ _).firm f c)

theorem degradeAdd_firm (f c : Prop) (s : State) (d : Die) (src : Nat) (gs : GSet) (hf : f → 2 < src)
    (hc : c → isFinding src = true → src ≤ 2) : Firm f c s (degradeAdd s d src gs) := by
  unfold degradeAdd
  extract_lets s1
  split
  · next hi =>
    split
    · next h2 =>
      exact ⟨fun h => absurd (hf h) (by omega), fun _ => rfl, id, fun x => by cases x <;> exact id⟩
    · next h2 => exact ⟨fun _ x => by cases x <;> rfl, fun h => absurd (hc h hi) h2, id, fun x => by cases x <;> exact id⟩
  · split
    · exact ⟨fun _ x => by cases d <;> cases x <;> rfl, fun _ => by cases d <;> rfl, by cases d <;> exact id,
        fun x => by cases d <;> cases x <;> exact id⟩
    · exact ⟨fun _ x => by cases d <;> cases x <;> rfl, fun _ => by cases d <;> rfl, by cases d <;> exact id,
        fun x => by cases d <;> cases x <;> exact id⟩

/-- A decision of a die stands from then on. -/
theorem moorDecide_moors (s : State) (d : Die) (src : Option Nat) :
    (moorDecide s d src).moor.pendM = true ∧ ((moorDecide s d src).die d).mooring = true := by
  cases d <;> exact ⟨rfl, rfl⟩

theorem moorDecide_firm (f c : Prop) (s : State) (d : Die) (src : Option Nat) : Firm f c s (moorDecide s d src) := by
  unfold moorDecide
  extract_lets s0 x s1
  have h0 : Firm f c s s0 := by
    simp only [s0]
    split <;> exact .of_eq f c rfl rfl rfl
  refine h0.trans ⟨fun _ y => ?_, fun _ => ?_, fun _ => rfl, fun y h => ?_⟩
  · cases d <;> cases y <;> rfl
  · cases d <;> rfl
  · cases d <;> cases y <;> simp_all [s1, State.die, State.setDie]

/-- A firing changes no group that an overrun found but by an overrun (sources 0 to 2), and none of the comparison but by a
finding of it that names groups: a firing without groups never degrades (R320). -/
theorem fireCore_firm (s : State) (src : Nat) (gs : GSet) (subj : BitVec 32) (bd : Bool) :
    Firm (2 < src) (isFinding src = true → src ≤ 2 ∨ gs = 0) s (fireCore s src gs subj bd) := by
  unfold fireCore
  extract_lets sv s1
  have h1 : Firm (2 < src) (isFinding src = true → src ≤ 2 ∨ gs = 0) s s1 := evSet_firm _ _ s src gs subj bd
  split
  · next h2 =>
    have hg : gs ≠ 0 := by
      rintro rfl
      have h3 : (if s.sevOf src = 2 then 3 else s.sevOf src) ≠ 2 := by split <;> omega
      simp only [sv, State.applied, true_or, and_true] at h2
      split at h2
      · omega
      · exact h3 h2
    exact h1.trans (degradeAdd_firm _ _ s1 _ src gs id fun hc hi => (hc hi).resolve_right hg)
  · split
    · exact h1.trans (moorDecide_firm _ _ s1 _ _)
    · exact h1

theorem roleSet_firm (f c : Prop) (s : State) (r : Role) (cause : BitVec 8) : Firm f c s (roleSet s r cause) := by
  unfold roleSet
  extract_lets s1 m
  have h1 : Firm f c s s1 := (recMake_answers _ _ _ _ _).firm f c
  have hm : m.cmpG = s1.moor.cmpG ∧ m.pendM = s1.moor.pendM := by
    simp only [m, MoorSt.leaveResync]
    split
    · split <;> exact ⟨rfl, rfl⟩
    · exact ⟨rfl, rfl⟩
  clear_value m
  have h2 : Firm f c s1 { s1 with twin := s1.twin.enter r s.now, moor := m } :=
    ⟨fun _ d => by cases d <;> rfl, fun _ => hm.1, fun h => hm.2.trans h, fun d => by cases d <;> exact id⟩
  have h3 := fireCore_firm { s1 with twin := s1.twin.enter r s.now, moor := m } 87 0 0 false
  exact (h1.trans h2).trans ⟨fun _ => h3.found (by omega), fun _ => h3.cmpG fun _ => .inr rfl, h3.pendM, h3.mooring⟩

theorem laneLeaves_frame (s : State) (p : Fin 4) (l : Lane) (q : List Lst) (n : Nat) :
    ∃ ps xs, laneLeaves s p l q n = { s with ports := ps, tx := xs } := by
  unfold laneLeaves
  split
  · exact ⟨s.ports, s.tx, rfl⟩
  · cases l <;> exact ⟨_, _, rfl⟩

theorem portDrops_frame (s : State) (p : Fin 4) : ∃ ps xs n, portDrops s p = { s with ports := ps, tx := xs, draws := n } := by
  unfold portDrops
  extract_lets x s0 s1
  have h : ∃ ps xs n, s1 = { s with ports := ps, tx := xs, draws := n } := by
    simp only [s1]
    split
    · obtain ⟨ps, xs, h1⟩ := laneLeaves_frame s p .A x.queueA (Config.startedBy s.draws)
      obtain ⟨ps', xs', h2⟩ := laneLeaves_frame (laneLeaves s p .A x.queueA (Config.startedBy s.draws)) p .B x.queueB
        (Config.startedBy (s.draws + 1))
      exact ⟨ps', xs', s.draws + 2, by simp only [s0, h2, h1]⟩
    · exact ⟨s.ports, s.tx, s.draws, rfl⟩
  obtain ⟨ps, xs, n, h⟩ := h
  exact ⟨_, xs, n, by rw [h]; rfl⟩

theorem portDrops_firm (f c : Prop) (s : State) (p : Fin 4) : Firm f c s (portDrops s p) := by
  obtain ⟨ps, xs, n, h⟩ := portDrops_frame s p
  rw [h]
  exact .of_eq f c rfl rfl rfl

theorem Firm.foldl {α : Type} {f c : Prop} (g : State → α → State) (h : ∀ s a, Firm f c s (g s a)) (l : List α) (s : State) :
    Firm f c s (l.foldl g s) := by
  induction l generalizing s with
  | nil => exact .refl f c s
  | cons a l ih => exact (h s a).trans (ih _)

theorem moorFrames_firm (f c : Prop) (s : State) : Firm f c s (moorFrames s) := by
  unfold moorFrames
  split
  · exact ⟨fun _ d => by cases d <;> rfl, fun _ => rfl, id, fun d => by cases d <;> exact id⟩
  · exact .refl f c s

theorem twin_firm (f c : Prop) (s : State) (x : TwinSt) : Firm f c s { s with twin := x } := .of_eq f c rfl rfl rfl

theorem moorEffects_firm (f c : Prop) (s : State) : Firm f c s (moorEffects s) := by
  unfold moorEffects
  extract_lets s0 x s1
  have h0 : Firm f c s s0 := .foldl _ (portDrops_firm f c) _ s
  have h1 : Firm f c s0 s1 := twin_firm f c s0 _
  clear_value s1
  refine (h0.trans h1).trans ?_
  split
  · split
    · exact ⟨fun _ d => by cases d <;> rfl, fun _ => rfl, id, fun d => by cases d <;> exact id⟩
    · exact moorFrames_firm f c s1
  · exact .refl f c s1
  · exact roleSet_firm f c s1 _ _

theorem unitReset_firm (f c : Prop) (s : State) (u : RstUnit) (path : Nat) : Firm f c s (unitReset s u path) := by
  have h1 : Firm f c s { s with
      settle := (s.settle.filter fun x => x.1 ≠ u) ++ [(u, tideAdd s.now (Config.settleTides u))] } := .of_eq f c rfl rfl rfl
  have h2 : ∀ t, Firm f c s t → ∀ rs v, Firm f c s { t with resets := rs, svc := v } :=
    fun t h rs v => h.trans (.of_eq f c rfl rfl rfl)
  cases u with
  | fpe n => exact h2 _ (h1.trans (portDrops_firm f c _ n)) _ _
  | mgp => exact h2 _ (h1.trans ((endSessions_answers _ _).firm f c)) _ _
  | svc => exact h2 _ (h1.trans ((endSessions_answers _ _).firm f c)) _ _
  | pws d => exact h1

theorem fireAt_firm (s : State) (src : Nat) (gs : GSet) (subj : BitVec 32) (bd : Bool) :
    Firm (2 < src) (isFinding src = true → src ≤ 2 ∨ gs = 0) s (fireAt s src gs subj bd) := by
  unfold fireAt
  extract_lets d sv s1 s2
  have h1 := fireCore_firm s src gs subj bd
  have h2 : Firm (2 < src) (isFinding src = true → src ≤ 2 ∨ gs = 0) s s2 := by
    simp only [s2]
    split
    · exact h1.trans (moorEffects_firm _ _ s1)
    · exact h1
  split
  · exact .refl _ _ s
  · split
    · exact h2.trans (unitReset_firm _ _ s2 _ _)
    · exact h2

end Sys2Proof.Machine
end

section
/-!
SUPPORT. The comparison: sets of groups, what a die signs, what it finds at its deadline and the verdict it sends, and O52.
-/

namespace Sys2Proof.Machine

/-! ## Sets of groups -/

theorem gHas_gBit (g h : Nat) (hg : g < 512) : gHas (gBit h) g = decide (g = h) := by
  unfold gHas gBit
  rw [BitVec.getLsbD_ofNat, Nat.testBit_two_pow]
  simp [hg, eq_comm]

theorem gHas_or (a b : GSet) (g : Nat) : gHas (a ||| b) g = (gHas a g || gHas b g) := BitVec.getLsbD_or

theorem gHas_gMinus (a b : GSet) (g : Nat) (hg : g < 512) : gHas (gMinus a b) g = (gHas a g && !gHas b g) := by
  simp [gHas, gMinus, hg]

theorem gHas_foldl (l : List Nat) (a : GSet) (g : Nat) (hg : g < 512) :
    gHas (l.foldl (fun a h => a ||| gBit h) a) g = (gHas a g || decide (g ∈ l)) := by
  induction l generalizing a with
  | nil => simp
  | cons h l ih => simp [ih, gHas_or, gHas_gBit g h hg, Bool.or_assoc]

theorem gHas_gOf (l : List Nat) (g : Nat) (hg : g < 512) : gHas (gOf l) g = decide (g ∈ l) := by
  rw [gOf, gHas_foldl l 0 g hg]
  simp [gHas]

/-- Sets with the same groups are the same. -/
theorem gset_ext (a b : GSet) (h : ∀ g, g < 512 → (gHas a g = true ↔ gHas b g = true)) : a = b :=
  BitVec.eq_of_getLsbD_eq fun g hg => Bool.eq_iff_iff.mpr (h g hg)

/-! ## What a die finds (R56, R167) -/

/-- The groups on which a die finds another signature. -/
def DieState.diffs (x : DieState) : GSet := gMinus x.differing x.found

/-- The groups whose signature a die misses. -/
def DieState.misses (x : DieState) : GSet := gMinus x.missing x.found

/-- The other die's digest differs. -/
def DieState.digDiff (x : DieState) : Bool := x.found = 0 && x.otherDig.any fun g => g ≠ x.dig

/-- The other die's digest has not arrived. -/
def DieState.digMiss (x : DieState) : Bool := x.found = 0 && x.otherDig.isNone

/-- The die with the verdict it forms of what it has. -/
def DieState.judged (x : DieState) : DieState :=
  let many : Bool := 15 < gCount (x.diffs ||| x.misses)
  let moor := x.digMiss || x.digDiff || many
  { x with sigDeadline := true, verdictMoor := moor, many := many,
           verdict := if moor then [] else (gList (x.diffs ||| x.misses)).map fun g => BitVec.ofNat 9 g }

theorem DieState.finds_diffs_misses (x : DieState) : x.finds x.diffs x.misses := by
  intro g hg
  constructor
  · rw [DieState.diffs, gHas_gMinus _ _ g hg, DieState.differing, gHas_gOf _ g hg]
    cases gHas x.found g <;> cases h : x.sigFrame g <;> simp [h, hg]
  · rw [DieState.misses, gHas_gMinus _ _ g hg, DieState.missing, gHas_gOf _ g hg]
    cases gHas x.found g <;> cases h : x.sigFrame g <;> simp [h, hg]

/-- What a die finds is determined. -/
theorem DieState.finds_unique {x : DieState} {a b c d : GSet} (h : x.finds a b) (g : x.finds c d) : a = c ∧ b = d :=
  ⟨gset_ext a c fun k hk => (h k hk).1.trans (g k hk).1.symm, gset_ext b d fun k hk => (h k hk).2.trans (g k hk).2.symm⟩

theorem DieState.digMiss_iff (x : DieState) : x.digMiss = true ↔ x.found = 0 ∧ x.otherDig = none := by
  simp only [DieState.digMiss, Bool.and_eq_true, decide_eq_true_eq, Option.isNone_iff_eq_none]

theorem DieState.digDiff_iff (x : DieState) :
    x.digDiff = true ↔ x.found = 0 ∧ x.otherDig ≠ none ∧ x.otherDig ≠ some x.dig := by
  unfold DieState.digDiff
  rw [Bool.and_eq_true, decide_eq_true_eq]
  refine and_congr_right fun _ => ?_
  cases x.otherDig <;> simp

/-- A digest that differs or is missing is one that is not the die's own. -/
theorem DieState.digest_bad (x : DieState) :
    (x.digMiss || x.digDiff) = (decide (x.found = 0) && decide (x.otherDig ≠ some x.dig)) := by
  unfold DieState.digMiss DieState.digDiff
  generalize decide (x.found = 0) = whole
  cases whole <;> cases x.otherDig <;> simp

/-- A firing that leaves the groups found incomplete changes nothing that a die compares. -/
theorem ReactsDie.judged {x y : DieState} (h : ReactsDie x y) (hf : y.found = x.found) :
    ReactsDie x.judged y.judged ∧ y.diffs = x.diffs ∧ y.misses = x.misses ∧ y.digMiss = x.digMiss
      ∧ y.digDiff = x.digDiff := by
  unfold ReactsDie at h
  rw [hf] at h
  have hd : y.diffs = x.diffs := by rw [h]; rfl
  have hm : y.misses = x.misses := by rw [h]; rfl
  have h1 : y.digMiss = x.digMiss := by rw [h]; rfl
  have h2 : y.digDiff = x.digDiff := by rw [h]; rfl
  refine ⟨?_, hd, hm, h1, h2⟩
  unfold ReactsDie DieState.judged
  rw [hd, hm, h1, h2, h]

/-! ## Sources of the comparison -/

/-- A die's source of GWY where a condition holds. -/
def gwyFireIf (c : Prop) [Decidable c] (s : State) (d : Die) (src : Nat) (gs : GSet) : State :=
  if c then gwyFire s d src gs else s

theorem gwyFireIf_reacts (c : Prop) [Decidable c] (s : State) (d : Die) (src : Nat) (gs : GSet) :
    Reacts s (gwyFireIf c s d src gs) := by
  unfold gwyFireIf
  split
  · exact fireAt_reacts s _ _ _ _
  · exact .refl s

theorem gwyFireIf_found (c : Prop) [Decidable c] (s : State) (d : Die) (src : Nat) (gs : GSet) (h : 2 < src) (e : Die) :
    ((gwyFireIf c s d src gs).die e).found = (s.die e).found := by
  unfold gwyFireIf
  split
  · exact (fireAt_firm s src gs 0 (d = .B)).found h e
  · rfl

theorem gwyFireIf_fired (c : Prop) [Decidable c] (s : State) (d : Die) (src : Fin 144) (gs : GSet) (hl : s.ev.length = 18)
    (hb : Config.blockOf src.val ≠ 3) (hr : s.runs d = true) (hc : c) :
    (gwyFireIf c s d src.val gs).fired src.val = true := by
  rw [gwyFireIf, if_pos hc]
  refine fireAt_fired s src gs 0 _ hl ?_
  cases d <;> simpa [detector, hb] using hr

/-- The sources that fire for what a die finds. -/
def findingsFire (s : State) (d : Die) (x : DieState) : State :=
  gwyFireIf (x.misses ≠ 0) (gwyFireIf (x.diffs ≠ 0)
    (gwyFireIf x.digMiss (gwyFireIf x.digDiff s d 10 0) d 11 0) d 8 x.diffs) d 9 x.misses

theorem formVerdict_of_not (s : State) (d : Die) (h : s.compares d = false) : formVerdict s d = s := by
  refine if_pos ?_
  unfold State.compares at h
  cases hr : s.runs d <;> cases ha : (s.die d).armed <;> simp_all

theorem formVerdict_of_compares (s : State) (d : Die) (h : s.compares d = true) :
    formVerdict s d = findingsFire (s.setDie d (s.die d).judged) d (s.die d) := by
  refine (if_neg ?_).trans ?_
  · unfold State.compares at h
    cases hr : s.runs d <;> cases ha : (s.die d).armed <;> simp_all
  · rfl

theorem findingsFire_reacts (s : State) (d : Die) (x : DieState) : Reacts s (findingsFire s d x) :=
  ((gwyFireIf_reacts _ s d 10 0).trans (gwyFireIf_reacts _ _ d 11 0)).trans
    ((gwyFireIf_reacts _ _ d 8 _).trans (gwyFireIf_reacts _ _ d 9 _))

theorem findingsFire_found (s : State) (d : Die) (x : DieState) (e : Die) :
    ((findingsFire s d x).die e).found = (s.die e).found := by
  simp only [findingsFire, gwyFireIf_found _ _ _ _ _ _ e, Nat.reduceLT]

/-- Each finding of a die that runs fires its source (R167, R182). -/
theorem findingsFire_fired (s : State) (d : Die) (x : DieState) (hl : s.ev.length = 18) (hr : s.runs d = true) :
    let t := findingsFire s d x
    (x.digDiff = true → t.fired 10 = true) ∧ (x.digMiss = true → t.fired 11 = true) ∧ (x.diffs ≠ 0 → t.fired 8 = true)
      ∧ (x.misses ≠ 0 → t.fired 9 = true) := by
  intro t
  have h1 := gwyFireIf_reacts (x.digDiff = true) s d 10 0
  have h2 := h1.trans (gwyFireIf_reacts (x.digMiss = true) _ d 11 0)
  have h3 := h2.trans (gwyFireIf_reacts (x.diffs ≠ 0) _ d 8 x.diffs)
  have g2 := gwyFireIf_reacts (x.misses ≠ 0) (gwyFireIf (x.diffs ≠ 0) (gwyFireIf (x.digMiss = true)
    (gwyFireIf (x.digDiff = true) s d 10 0) d 11 0) d 8 x.diffs) d 9 x.misses
  have g1 := (gwyFireIf_reacts (x.diffs ≠ 0) (gwyFireIf (x.digMiss = true) (gwyFireIf (x.digDiff = true) s d 10 0) d 11 0)
    d 8 x.diffs).trans g2
  have g0 := (gwyFireIf_reacts (x.digMiss = true) (gwyFireIf (x.digDiff = true) s d 10 0) d 11 0).trans g1
  refine ⟨fun h => g0.fired _ ?_, fun h => g1.fired _ ?_, fun h => g2.fired _ ?_, fun h => ?_⟩
  · exact gwyFireIf_fired _ s d ⟨10, by decide⟩ 0 hl (by decide) hr h
  · exact gwyFireIf_fired _ _ d ⟨11, by decide⟩ 0 (h1.evLength.trans hl) (by decide) ((h1.runs d).trans hr) h
  · exact gwyFireIf_fired _ _ d ⟨8, by decide⟩ _ (h2.evLength.trans hl) (by decide) ((h2.runs d).trans hr) h
  · exact gwyFireIf_fired _ _ d ⟨9, by decide⟩ _ (h3.evLength.trans hl) (by decide) ((h3.runs d).trans hr) h

theorem findingsFire_of_agrees (s : State) (d : Die) (x : DieState) (h1 : x.digDiff = false) (h2 : x.digMiss = false)
    (h3 : x.diffs = 0) (h4 : x.misses = 0) : findingsFire s d x = s := by
  simp only [findingsFire, gwyFireIf, h1, h2, h3, h4, ne_eq, not_true_eq_false, Bool.false_eq_true, if_false]

/-! ## The verdicts of both dies -/

/-- What a firing may change does not depend on what else of a die has changed. -/
theorem Reacts.setDie {s t : State} (h : Reacts s t) (d : Die) (x y : DieState) (hxy : ReactsDie x y) :
    Reacts (s.setDie d x) (t.setDie d y) := by
  have f := h.frame
  cases d
  · exact ⟨by simp only [State.setDie]; rw [f], h.evLength, h.evOf, hxy, h.dieB, h.moor, h.twin, h.svc, h.lio,
      h.portsLength, h.port, h.sent⟩
  · exact ⟨by simp only [State.setDie]; rw [f], h.evLength, h.evOf, h.dieA, hxy, h.moor, h.twin, h.svc, h.lio,
      h.portsLength, h.port, h.sent⟩

theorem Reacts.die {s t : State} (h : Reacts s t) (d : Die) : ReactsDie (s.die d) (t.die d) := by
  cases d
  · exact h.dieA
  · exact h.dieB

theorem Reacts.compares {s t : State} (h : Reacts s t) (d : Die) : t.compares d = s.compares d := by
  have hd := h.die d
  unfold ReactsDie at hd
  unfold State.compares
  rw [h.runs, hd]

/-- The die that compares has its verdict; what it found has not fired. -/
def verdictFormed (s : State) (d : Die) : State := if s.compares d then s.setDie d (s.die d).judged else s

theorem formVerdict_eq (s : State) (d : Die) : formVerdict s d
    = if s.compares d then findingsFire (verdictFormed s d) d (s.die d) else s := by
  unfold verdictFormed
  split
  · next h => exact formVerdict_of_compares s d h
  · next h => exact formVerdict_of_not s d (by simpa using h)

theorem formVerdict_reacts (s : State) (d : Die) : Reacts (verdictFormed s d) (formVerdict s d) := by
  rw [formVerdict_eq]
  split
  · exact findingsFire_reacts _ _ _
  · next h => rw [verdictFormed, if_neg h]; exact .refl s

theorem formVerdict_found (s : State) (d e : Die) : ((formVerdict s d).die e).found = (s.die e).found := by
  rw [formVerdict_eq]
  split
  · next hc =>
    rw [findingsFire_found, verdictFormed, if_pos hc]
    cases d <;> cases e <;> rfl
  · rfl

theorem verdictFormed_die (s : State) (d : Die) :
    (verdictFormed s d).die d = if s.compares d then (s.die d).judged else s.die d := by
  unfold verdictFormed
  split
  · exact State.setDie_die _ _ _
  · rfl

theorem verdictFormed_other (s : State) (d : Die) : (verdictFormed s d).die (Die.other d) = s.die (Die.other d) := by
  unfold verdictFormed
  split
  · exact State.setDie_other _ _ _
  · rfl

theorem verdictFormed_frame (s : State) (d : Die) :
    verdictFormed s d = { s with a := (verdictFormed s d).a, b := (verdictFormed s d).b } := by
  unfold verdictFormed
  split
  · cases d <;> rfl
  · rfl

/-- The verdict in the words of the statements: MOOR for a digest that is not the die's own, and for more than 15 groups. -/
theorem DieState.judged_eq (x : DieState) :
    let many := decide (15 < gCount (x.diffs ||| x.misses))
    let moor := (decide (x.found = 0) && decide (x.otherDig ≠ some x.dig)) || many
    x.judged = { x with
      sigDeadline := true, verdictMoor := moor, many := many,
      verdict := if moor then [] else (gList (x.diffs ||| x.misses)).map fun g => BitVec.ofNat 9 g } := by
  intro many moor
  have h : (x.digMiss || x.digDiff || many) = moor := by rw [x.digest_bad]
  exact congrArg (fun m => { x with
    sigDeadline := true, verdictMoor := m, many := many,
    verdict := if m then [] else (gList (x.diffs ||| x.misses)).map fun g => BitVec.ofNat 9 g }) h

/-- A die's findings fire, whatever the other die's have changed before. -/
theorem formVerdict_fired (s : State) (d : Die) (hl : s.ev.length = 18) (hc : s.compares d = true) :
    let x := s.die d
    let t := formVerdict s d
    (x.found = 0 → x.otherDig = none → t.fired 11 = true)
      ∧ (x.found = 0 → x.otherDig ≠ none → x.otherDig ≠ some x.dig → t.fired 10 = true)
      ∧ (x.diffs ≠ 0 → t.fired 8 = true) ∧ (x.misses ≠ 0 → t.fired 9 = true) := by
  intro x t
  have hr : s.runs d = true := by
    simp only [State.compares, Bool.and_eq_true] at hc
    exact hc.1.1
  have ht : t = findingsFire (s.setDie d x.judged) d x := formVerdict_of_compares s d hc
  have hr' : (s.setDie d x.judged).runs d = true := by cases d <;> exact hr
  obtain ⟨h10, h11, h8, h9⟩ := findingsFire_fired (s.setDie d x.judged) d x (by cases d <;> exact hl) hr'
  rw [ht]
  exact ⟨fun hf hn => h11 (x.digMiss_iff.mpr ⟨hf, hn⟩), fun hf hn hd => h10 (x.digDiff_iff.mpr ⟨hf, hn, hd⟩), h8, h9⟩

/-- A die that finds nothing fires nothing. -/
theorem formVerdict_of_agrees (s : State) (d : Die)
    (h : s.compares d = true → ((s.die d).found = 0 → (s.die d).otherDig = some (s.die d).dig) ∧ (s.die d).finds 0 0) :
    formVerdict s d = verdictFormed s d := by
  rw [formVerdict_eq]
  by_cases hc : s.compares d = true
  · rw [if_pos hc]
    obtain ⟨hd, hf⟩ := h hc
    obtain ⟨h8, h9⟩ := DieState.finds_unique (s.die d).finds_diffs_misses hf
    refine findingsFire_of_agrees _ _ _ ?_ ?_ h8 h9
    · rw [Bool.eq_false_iff, ne_eq, DieState.digDiff_iff]
      exact fun ⟨h0, _, h1⟩ => h1 (hd h0)
    · rw [Bool.eq_false_iff, ne_eq, DieState.digMiss_iff]
      rintro ⟨h0, h1⟩
      rw [hd h0] at h1
      exact absurd h1 (by simp)
  · rw [if_neg hc, verdictFormed, if_neg hc]

/-- Whether a die compares is a matter of that die alone. -/
theorem State.compares_of_die {s t : State} {d : Die} (h : t.die d = s.die d) : t.compares d = s.compares d := by
  unfold State.compares State.runs
  rw [h]

theorem Reacts.verdictFormed {s t : State} (h : Reacts s t) (d : Die) (hf : (t.die d).found = (s.die d).found) :
    Reacts (verdictFormed s d) (verdictFormed t d) := by
  unfold Machine.verdictFormed
  rw [h.compares]
  split
  · exact h.setDie d _ _ ((h.die d).judged hf).1
  · exact h

/-- A position reached later than commands have run the tick. -/
theorem enterPhase_tick_toNat (s : State) (ph : BitVec 3) (us : Nat) :
    (enterPhase s ph us).tide.tick.toNat = max s.tide.tick.toNat (Config.tickAt us).toNat := by
  unfold enterPhase
  dsimp only
  split
  · next h => rw [BitVec.lt_def] at h; omega
  · next h => rw [BitVec.lt_def] at h; omega

/-- What both dies' verdicts are before what they found has fired: each die's own. -/
theorem verdictsFormed_die (s : State) (d : Die) : (verdictFormed (verdictFormed s .A) .B).die d
    = if s.compares d then (s.die d).judged else s.die d := by
  have hB : (verdictFormed s .A).die .B = s.die .B := verdictFormed_other s .A
  cases d
  · exact (verdictFormed_other _ .B).trans (verdictFormed_die s .A)
  · rw [verdictFormed_die, State.compares_of_die hB, hB]

theorem verdictsFormed_frame (s : State) :
    let t := verdictFormed (verdictFormed s .A) .B
    t = { s with a := t.a, b := t.b } := by
  intro t
  have h : t = { verdictFormed s .A with a := t.a, b := t.b } := verdictFormed_frame _ .B
  rw [verdictFormed_frame s .A] at h
  exact h

/-- Both dies' verdicts, one formed after the other's findings have fired. -/
theorem formVerdicts_reacts (s : State) :
    Reacts (verdictFormed (verdictFormed s .A) .B) (formVerdict (formVerdict s .A) .B) := by
  refine ((formVerdict_reacts s .A).verdictFormed .B ?_).trans (formVerdict_reacts _ .B)
  rw [formVerdict_found s .A .B, show (verdictFormed s .A).die .B = s.die .B from verdictFormed_other s .A]

/-- Each die's findings fire, as the die stood before the other's. -/
theorem formVerdicts_fired (s : State) (d : Die) (hl : s.ev.length = 18) (hc : s.compares d = true) :
    let x := s.die d
    let t := formVerdict (formVerdict s .A) .B
    (x.found = 0 → x.otherDig = none → t.fired 11 = true)
      ∧ (x.found = 0 → x.otherDig ≠ none → x.otherDig ≠ some x.dig → t.fired 10 = true)
      ∧ (x.diffs ≠ 0 → t.fired 8 = true) ∧ (x.misses ≠ 0 → t.fired 9 = true) := by
  cases d with
  | A =>
    have hr : ∀ src, (formVerdict s .A).fired src = true → (formVerdict (formVerdict s .A) .B).fired src = true := by
      intro src h
      refine (formVerdict_reacts (formVerdict s .A) .B).fired src ?_
      unfold State.fired at h ⊢
      rw [verdictFormed_frame]
      exact h
    obtain ⟨h11, h10, h8, h9⟩ := formVerdict_fired s .A hl hc
    exact ⟨fun h g => hr _ (h11 h g), fun h g k => hr _ (h10 h g k), fun h => hr _ (h8 h), fun h => hr _ (h9 h)⟩
  | B =>
    have hA := formVerdict_reacts s .A
    have hB : (verdictFormed s .A).die .B = s.die .B := verdictFormed_other s .A
    have hev : (verdictFormed s .A).ev.length = 18 := by
      rw [verdictFormed_frame]
      exact hl
    have hx := hA.die .B
    rw [hB] at hx
    have hf : ((formVerdict s .A).die .B).found = (s.die .B).found := formVerdict_found s .A .B
    obtain ⟨-, hd, hm, -, -⟩ := hx.judged hf
    obtain ⟨h11, h10, h8, h9⟩ := formVerdict_fired (formVerdict s .A) .B (hA.evLength.trans hev)
      ((hA.compares .B).trans ((State.compares_of_die hB).trans hc))
    have ho : ((formVerdict s .A).die .B).otherDig = (s.die .B).otherDig := by rw [hx]
    have hg : ((formVerdict s .A).die .B).dig = (s.die .B).dig := by rw [hx]
    rw [hf, ho] at h11
    rw [hf, ho, hg] at h10
    rw [hd] at h8
    rw [hm] at h9
    exact ⟨h11, h10, h8, h9⟩

/-- Both dies' verdicts at a position of the tide. -/
theorem formVerdicts_compared (s : State) (us : Nat) (hl : s.ev.length = 18) :
    Compared us s (formVerdict (formVerdict (reachTick s us) .A) .B) := by
  have hdie : ∀ d, (reachTick s us).die d = s.die d := fun d => by cases d <;> rfl
  have hcmp : ∀ d, (reachTick s us).compares d = s.compares d := fun d => State.compares_of_die (hdie d)
  have hd : ∀ d, (verdictFormed (verdictFormed (reachTick s us) .A) .B).die d
      = if s.compares d then (s.die d).judged else s.die d := fun d => by rw [verdictsFormed_die, hcmp, hdie]
  have hf := verdictsFormed_frame (reachTick s us)
  refine ⟨verdictFormed (verdictFormed (reachTick s us) .A) .B, ?_, ?_, formVerdicts_reacts _, fun d hc => ?_,
    fun d hc => ?_, fun h => ?_⟩
  · have ht : (verdictFormed (verdictFormed (reachTick s us) .A) .B).tide = (reachTick s us).tide := by rw [hf]
    rw [ht]
    exact hf
  · rw [hf]
    exact enterPhase_tick_toNat s _ us
  · rw [hd, if_neg (by simpa using hc)]
  · have hfire := formVerdicts_fired (reachTick s us) d hl ((hcmp d).trans hc)
    simp only [hdie] at hfire
    refine ⟨(s.die d).diffs, (s.die d).misses, (s.die d).finds_diffs_misses, ?_⟩
    intro x many moor
    rw [hd, if_pos hc]
    exact ⟨x.judged_eq, hfire⟩
  · have hB : (verdictFormed (reachTick s us) .A).die .B = s.die .B := (verdictFormed_other _ .A).trans (hdie .B)
    rw [formVerdict_of_agrees (reachTick s us) .A fun hc => by rw [hdie]; exact h .A ((hcmp .A).symm.trans hc)]
    refine formVerdict_of_agrees _ .B fun hc => ?_
    rw [hB]
    exact h .B ((State.compares_of_die hB).symm.trans hc)

/-! ## Overruns (R56) -/

/-- What a firing may change does not depend on the tide's own registers. -/
theorem Reacts.withTide {s t : State} (h : Reacts s t) (x : TideBlk) (hr : x.running = s.tide.running) :
    Reacts { s with tide := x } { t with tide := x } where
  frame := by have f := h.frame; rw [f]
  evLength := h.evLength
  evOf := h.evOf
  dieA := h.dieA
  dieB := h.dieB
  moor := h.moor
  twin := h.twin
  svc := h.svc
  lio := by
    show ReactsLio x.running s.lio t.lio
    rw [hr]
    exact h.lio
  portsLength := h.portsLength
  port := h.port
  sent := h.sent

/-- Beside the budget report, only what a firing may change has changed. -/
def BudgetReacts (s t : State) : Prop :=
  t.tide = { s.tide with budget := t.tide.budget } ∧ Reacts { s with tide := t.tide } t

theorem BudgetReacts.refl (s : State) : BudgetReacts s s := ⟨rfl, Reacts.refl s⟩

theorem BudgetReacts.trans {s t u : State} (h : BudgetReacts s t) (g : BudgetReacts t u) : BudgetReacts s u := by
  obtain ⟨ht, hr⟩ := h
  obtain ⟨gt, gr⟩ := g
  have hu : u.tide = { s.tide with budget := u.tide.budget } := by
    rw [ht] at gt
    exact gt
  refine ⟨hu, (hr.withTide u.tide ?_).trans gr⟩
  show u.tide.running = t.tide.running
  rw [hu, ht]

theorem BudgetReacts.runs {s t : State} (h : BudgetReacts s t) (d : Die) : t.runs d = s.runs d :=
  (h.2.runs d).trans (by cases d <;> rfl)

theorem BudgetReacts.evLength {s t : State} (h : BudgetReacts s t) : t.ev.length = s.ev.length := h.2.evLength

theorem overrun_budgetReacts (s : State) (src : Nat) : BudgetReacts s (overrun s src) := by
  have h := fire_reacts { budgetCount s 6 with draws := s.draws + 1 } src (Config.incomplete s.draws) 0
  have ht : (overrun s src).tide = (budgetCount s 6).tide := h.tide
  refine ⟨by rw [ht]; rfl, ?_⟩
  rw [ht]
  exact (settle_reacts _ s.settle s.resets (s.draws + 1)).trans h

theorem overrun_fired (s : State) (src : Fin 144) (hl : s.ev.length = 18) (hb : Config.blockOf src.val ≠ 3)
    (hr : s.runs .A = true) : (overrun s src.val).fired src.val = true :=
  fire_fired { budgetCount s 6 with draws := s.draws + 1 } src _ _ hl hb hr

theorem overruns_budgetReacts (s : State) : BudgetReacts s (overruns s) := by
  unfold overruns
  extract_lets s1
  have h1 : BudgetReacts s s1 := by
    simp only [s1]
    split
    · exact overrun_budgetReacts s 0
    · exact .refl s
  split
  · exact h1.trans (overrun_budgetReacts s1 1)
  · exact h1

/-- A channel that has not finished fires its source (R56). -/
theorem overruns_fired (s : State) (hl : s.ev.length = 18) (ha : s.a.armed = true) (hr : s.runs .A = true) :
    (s.tide.aDone = false → (overruns s).fired 0 = true) ∧ (s.tide.bDone = false → (overruns s).fired 1 = true) := by
  unfold overruns
  extract_lets s1
  have h1 : BudgetReacts s s1 := by
    simp only [s1]
    split
    · exact overrun_budgetReacts s 0
    · exact .refl s
  refine ⟨fun h => ?_, fun h => ?_⟩
  · have h0 : s1.fired 0 = true := by
      simp only [s1, ha, h]
      exact overrun_fired s ⟨0, by decide⟩ hl (by decide) hr
    split
    · exact (overrun_budgetReacts s1 1).2.fired 0 h0
    · exact h0
  · rw [if_pos (by simp [ha, h])]
    exact overrun_fired s1 ⟨1, by decide⟩ (h1.evLength.trans hl) (by decide) ((h1.runs .A).trans hr)

theorem overruns_of_done (s : State) (h : s.a.armed = false ∨ (s.tide.aDone = true ∧ s.tide.bDone = true)) :
    overruns s = s := by
  unfold overruns
  rcases h with h | ⟨h1, h2⟩
  · simp [h]
  · simp [h1, h2]

/-! ## Signatures (R56, R164 to R166) -/

/-- What a die signs depends on its own bank, states and net, and on its memory rows. -/
theorem groupSigs_congr {s t : State} {d : Die} (hr : t.rows = s.rows) (hn : (t.die d).net = (s.die d).net)
    (hw : (t.die d).working = (s.die d).working) (hs : (t.die d).shadow = (s.die d).shadow) :
    groupSigs t d = groupSigs s d := by
  unfold groupSigs State.workRead State.rowsIn
  rw [hr, hn, hw, hs]

theorem wholeDigest_congr {s t : State} {d : Die} (hr : t.rows = s.rows) (hn : (t.die d).net = (s.die d).net)
    (hw : (t.die d).working = (s.die d).working) (ht : t.now = s.now) (sigs : List (BitVec 32)) :
    wholeDigest t d sigs = wholeDigest s d sigs := by
  unfold wholeDigest State.workRead State.rowsIn
  rw [hr, hn, hw, ht]

/-- A frame a die sends waits for the other die. -/
theorem gwSend_eq (s : State) (d : Die) (x : GwFrame) :
    gwSend s d x = s.setGwFor (Die.other d) (s.gwFor (Die.other d) ++ [x]) := by cases d <;> rfl

theorem setGwFor_setGwFor (s : State) (d : Die) (q r : List GwFrame) : (s.setGwFor d q).setGwFor d r = s.setGwFor d r := by
  cases d <;> rfl

@[simp] theorem modDie_gwFor (s : State) (d e : Die) (f : DieState → DieState) : (s.modDie d f).gwFor e = s.gwFor e := by
  cases d <;> cases e <;> rfl

theorem foldl_gwSend (s : State) (d : Die) (f : Nat → GwFrame) (l : List Nat) :
    l.foldl (fun s k => gwSend s d (f k)) s = s.setGwFor (Die.other d) (s.gwFor (Die.other d) ++ l.map f) := by
  induction l generalizing s with
  | nil => cases d <;> simp [State.setGwFor, State.gwFor, Die.other]
  | cons k l ih => rw [List.foldl_cons, ih, gwSend_eq, setGwFor_setGwFor, State.setGwFor_gwFor, List.append_assoc]; rfl

/-- What a die sends of its signatures and its digest: eight signatures to a frame. -/
def sigFrames (s : State) (d : Die) : List GwFrame :=
  (List.range 64).map (fun k => GwFrame.sigs k (((groupSigs s d).drop (8 * k)).take 8))
    ++ [.digest (wholeDigest s d (groupSigs s d))]

theorem signDie_eq (s : State) (d : Die) : signDie s d = if s.runs d && (s.die d).armed then
      (s.modDie d fun x => { x with sigs := groupSigs s d, dig := wholeDigest s d (groupSigs s d) }).setGwFor (Die.other d)
        (s.gwFor (Die.other d) ++ sigFrames s d)
    else s := by
  unfold signDie
  by_cases h : (s.runs d && (s.die d).armed) = true
  · have h' : ¬ (!s.runs d || !(s.die d).armed) = true := by simpa using h
    rw [if_neg h', if_pos h]
    extract_lets sigs dig s1 s2
    have h2 : s2 = s1.setGwFor (Die.other d) (s1.gwFor (Die.other d)
        ++ (List.range 64).map fun k => GwFrame.sigs k ((sigs.drop (8 * k)).take 8)) := foldl_gwSend s1 d _ _
    rw [gwSend_eq, h2, State.setGwFor_gwFor, setGwFor_setGwFor, List.append_assoc, modDie_gwFor]
    rfl
  · have h' : (!s.runs d || !(s.die d).armed) = true := by simpa [imp_iff_not_or] using h
    rw [if_pos h', if_neg h]

/-- What signing changes: the die's own signatures and digest, and what waits for the other die. -/
theorem signDie_signs (s : State) (d : Die) :
    let t := signDie s d
    let signs := s.runs d && (s.die d).armed
    t = { s with a := t.a, b := t.b, ab := t.ab, ba := t.ba }
      ∧ t.die d = (if signs then { s.die d with sigs := groupSigs s d, dig := wholeDigest s d (groupSigs s d) } else s.die d)
      ∧ t.die (Die.other d) = s.die (Die.other d) ∧ t.gwFor d = s.gwFor d
      ∧ t.gwFor (Die.other d) = s.gwFor (Die.other d) ++ if signs then sigFrames s d else [] := by
  intro t signs
  have h : t = if signs then _ else _ := signDie_eq s d
  generalize groupSigs s d = x at h ⊢
  generalize wholeDigest s d x = y at h ⊢
  generalize sigFrames s d = z at h ⊢
  by_cases hc : signs = true
  · simp only [if_pos hc] at h ⊢
    rw [h]
    cases d <;> exact ⟨rfl, rfl, rfl, rfl, rfl⟩
  · simp only [if_neg hc] at h ⊢
    rw [h]
    cases d <;> exact ⟨rfl, rfl, rfl, rfl, (List.append_nil _).symm⟩

/-! ## Verdict frames (R167) -/

theorem be_length (n v : Nat) : (be n v).length = n := by
  induction n with
  | zero => rfl
  | succ n ih => simp [be, ih]

/-- Two octets spell the number they were made of (R11). -/
theorem ofBe_be_two (v : Nat) (h : v < 65536) : ofBe (be 2 v) = v := by
  simp [be, ofBe]
  omega

/-- The i-th of some numbers of two octets each. -/
theorem field_flatMap_be_two (l : List (BitVec 9)) (r : Octets) (i : Nat) (h : i < l.length) :
    field (l.flatMap (fun g => be 2 g.toNat) ++ r) (2 * i) 2 = l[i].toNat := by
  induction l generalizing i with
  | nil => exact absurd h (by simp)
  | cons g l ih =>
    have hg := g.isLt
    cases i with
    | zero =>
      have ht : slice ((g :: l).flatMap (fun g => be 2 g.toNat) ++ r) (2 * 0) 2 = be 2 g.toNat := by simp [slice, be]
      rw [field, ht, ofBe_be_two _ (by omega)]
      rfl
    | succ i =>
      have ht : slice ((g :: l).flatMap (fun g => be 2 g.toNat) ++ r) (2 * (i + 1)) 2
          = slice (l.flatMap (fun g => be 2 g.toNat) ++ r) (2 * i) 2 := by simp [slice, be, Nat.mul_succ]
      have hi := ih i (by simpa using h)
      rw [field] at hi ⊢
      rw [ht, hi]
      rfl

theorem verdictOctets_length (moor : Bool) (gs : List (BitVec 9)) (h : gs.length ≤ 15) :
    (verdictOctets moor gs).length = 32 := by
  cases moor
  · simp [verdictOctets, be_length, List.take_of_length_le h, List.length_flatMap]
    omega
  · simp [verdictOctets, be_length]

/-- A verdict frame is read back as the verdict; with MOOR it lists no group. -/
theorem verdictRead_verdictOctets (moor : Bool) (gs : List (BitVec 9)) (h : gs.length ≤ 15) :
    verdictRead (verdictOctets moor gs) = (moor, if moor then [] else gs) := by
  generalize hl : (if moor then [] else gs.take 15) = l
  have hlen : l.length ≤ 15 := by
    rw [← hl]
    cases moor <;> simp
  have hle : (if moor then [] else gs) = l := by
    rw [← hl, List.take_of_length_le h]
  have hw : b2n moor * 32768 + l.length < 65536 := by cases moor <;> simp [b2n] <;> omega
  have h0 : field (verdictOctets moor gs) 0 2 = b2n moor * 32768 + l.length := by
    have ht : slice (verdictOctets moor gs) 0 2 = be 2 (b2n moor * 32768 + l.length) := by
      simp [slice, verdictOctets, hl, be]
    rw [field, ht, ofBe_be_two _ hw]
  have hi : ∀ i, (hi : i < l.length) → field (verdictOctets moor gs) (2 + 2 * i) 2 = l[i].toNat := by
    intro i hi
    rw [← field_flatMap_be_two l (List.replicate (2 * (15 - l.length)) 0xFF) i hi]
    simp only [field, slice, verdictOctets, hl, Nat.add_comm 2]
    simp [be]
  have hm : (b2n moor * 32768 + l.length) % 16 = l.length := by cases moor <;> simp [b2n] <;> omega
  have hb : bitOf (b2n moor * 32768 + l.length) 15 = moor := by
    have hd : (b2n moor * 32768 + l.length) / 2 ^ 15 % 2 = b2n moor := by cases moor <;> simp [b2n] <;> omega
    rw [bitOf, hd]
    cases moor <;> rfl
  rw [hle, verdictRead, h0, hm, hb]
  refine Prod.ext rfl (List.ext_getElem (by simp) fun i h1 h2 => ?_)
  rw [List.getElem_map, List.getElem_range, hi i h2, BitVec.ofNat_toNat, BitVec.setWidth_eq]

/-! ## The exchange -/

/-- What sending its verdict changes: what waits for the other die. -/
theorem sendVerdict_eq (s : State) (d : Die) : sendVerdict s d = s.setGwFor (Die.other d) (s.gwFor (Die.other d) ++
    if s.runs d && (s.die d).armed then
      [.verdict (verdictOctets (s.die d).verdictMoor (s.die d).verdict), .degrade (s.die d).degrade]
    else []) := by
  unfold sendVerdict
  dsimp only
  split
  · rw [gwSend_eq, gwSend_eq, State.setGwFor_gwFor, setGwFor_setGwFor, List.append_assoc]
    rfl
  · cases d <;> simp [State.setGwFor, State.gwFor, Die.other]

/-- A die keeps a signature or digest frame that arrives before its deadline (R166). -/
def DieState.keepSig (x : DieState) (f : GwFrame) : DieState :=
  if x.sigDeadline then x else match f with
    | .sigs k v => { x with otherSigs := x.otherSigs ++ [(k, v)] }
    | .digest g => { x with otherDig := some g }
    | _ => x

theorem execSignatureFrameReceived_of_frame (s : State) (d : Die) (f : GwFrame) (q : List GwFrame) (hr : s.runs d = true)
    (hf : takeFrame (s.gwFor d) GwFrame.isSig = some (f, q)) :
    execSignatureFrameReceived d s = .next ((s.setGwFor d q).setDie d ((s.die d).keepSig f)) := by
  have hd : (s.setGwFor d q).die d = s.die d := by cases d <;> rfl
  have hn : (s.setGwFor d q).setDie d (s.die d) = s.setGwFor d q := by cases d <;> rfl
  have hr' : ¬ (!s.runs d) = true := by simp [hr]
  simp only [execSignatureFrameReceived, if_neg hr', hf, DieState.keepSig]
  split
  · rw [hn]
  · cases f <;> simp only [State.modDie, hd, hn]

/-- What a die signs, and whether it does, is not a matter of what a firing may change. -/
theorem ReactsDie.signs {s t : State} {d : Die} (h : ReactsDie (s.die d) (t.die d)) (hr : t.rows = s.rows)
    (hn : t.now = s.now) : groupSigs t d = groupSigs s d ∧ (∀ x, wholeDigest t d x = wholeDigest s d x)
      ∧ sigFrames t d = sigFrames s d ∧ (t.runs d && (t.die d).armed) = (s.runs d && (s.die d).armed) := by
  unfold ReactsDie at h
  have hg : groupSigs t d = groupSigs s d := groupSigs_congr hr (by rw [h]) (by rw [h]) (by rw [h])
  have hw : ∀ x, wholeDigest t d x = wholeDigest s d x := wholeDigest_congr hr (by rw [h]) (by rw [h]) hn
  refine ⟨hg, hw, ?_, ?_⟩
  · unfold sigFrames
    rw [hg, hw]
  · unfold State.runs
    rw [h]

/-- Both dies sign what they held when the comparison began: no overrun's firing changes it. -/
theorem comparisonSigned (s s2 : State) (hb : BudgetReacts (enterPhase s 2 1500) s2) :
    let t := signDie (signDie s2 .A) .B
    t = { s2 with a := t.a, b := t.b, ab := t.ab, ba := t.ba } ∧ ∀ d,
      let signs := s.runs d && (s.die d).armed
      t.die d = (if signs then { s2.die d with sigs := groupSigs s d, dig := wholeDigest s d (groupSigs s d) } else s2.die d)
      ∧ t.gwFor (Die.other d) = s.gwFor (Die.other d) ++ if signs then sigFrames s d else [] := by
  intro t
  obtain ⟨fA, dA, oA, gA, hA⟩ := signDie_signs s2 .A
  obtain ⟨fB, dB, oB, gB, hB⟩ := signDie_signs (signDie s2 .A) .B
  change t = { signDie s2 .A with a := t.a, b := t.b, ab := t.ab, ba := t.ba } at fB
  change t.die .B = _ at dB
  change t.die .A = _ at oB
  change t.gwFor .B = _ at gB
  change t.gwFor .A = _ at hB
  clear_value t
  have hrows : s2.rows = s.rows := by rw [hb.2.frame]; rfl
  have hnow : s2.now = s.now := by
    unfold State.now
    rw [hb.1]
    rfl
  have hgw : ∀ d, s2.gwFor d = s.gwFor d := fun d => by cases d <;> (rw [hb.2.frame]; rfl)
  have hdA : ReactsDie (s.die .A) (s2.die .A) := hb.2.dieA
  have hdB : ReactsDie (s.die .B) ((signDie s2 .A).die .B) := by
    rw [show (signDie s2 .A).die .B = s2.die .B from oA]
    exact hb.2.dieB
  obtain ⟨aSigs, aDig, aFrames, aSigns⟩ := hdA.signs hrows hnow
  obtain ⟨bSigs, bDig, bFrames, bSigns⟩ := hdB.signs (by rw [fA]; exact hrows) (by rw [fA]; exact hnow)
  refine ⟨?_, fun d => ?_⟩
  · rw [fA] at fB
    exact fB
  · cases d with
    | A =>
      rw [aSigs, aDig, aSigns] at dA
      rw [aFrames, aSigns, hgw] at hA
      exact ⟨oB.trans dA, gB.trans hA⟩
    | B =>
      have h1 : (signDie s2 .A).die .B = s2.die .B := oA
      have h2 : (signDie s2 .A).gwFor .A = s.gwFor .A := gA.trans (hgw .A)
      rw [bSigs, bDig, bSigns, h1] at dB
      rw [bFrames, bSigns, show Die.other .B = .A from rfl, h2] at hB
      exact ⟨dB, hB⟩

/-- Forming verdicts changes no link, and neither which dies run nor which nets are armed. -/
theorem Compared.keeps {us : Nat} {s t : State} (h : Compared us s t) :
    (∀ d, t.gwFor d = s.gwFor d) ∧ ∀ d, (t.runs d && (t.die d).armed) = (s.runs d && (s.die d).armed) := by
  obtain ⟨s1, hf, -, hr, hn, hc, -⟩ := h
  have hf' := hr.frame
  refine ⟨fun d => ?_, fun d => ?_⟩
  · cases d <;> (rw [hf', hf]; rfl)
  · have hd : (s1.die d).armed = (s.die d).armed ∧ (s1.die d).inReset = (s.die d).inReset := by
      cases hcd : s.compares d with
      | false => rw [hn d hcd]; exact ⟨rfl, rfl⟩
      | true =>
        obtain ⟨_, _, _, h1, _⟩ := hc d hcd
        rw [h1]
        exact ⟨rfl, rfl⟩
    have hx := hr.die d
    unfold ReactsDie at hx
    unfold State.runs
    rw [hx, hd.1, hd.2]

end Sys2Proof.Machine

open Sys2Proof Sys2Proof.Machine

/-- Settles O52: both dies sign with `signDie`, judge with `formVerdict` and send with `sendVerdict`, and what overruns and
findings fire stays within `Reacts`. -/
theorem signaturesAndVerdictsAreFormed : Obligations.SignaturesAndVerdictsAreFormed := by
  intro s hs
  obtain ⟨-, hev, -⟩ := hs
  refine ⟨?_, ?_, ?_, ?_, ?_, ?_, ?_, ?_, fun moor gs h => ⟨verdictOctets_length moor gs h, verdictRead_verdictOctets moor gs h⟩⟩
  · intro h
    show execComparisonStart s = _
    rcases h with h | h <;> simp [execComparisonStart, h]
  · intro hr hp
    have hb := overruns_budgetReacts (enterPhase s 2 1500)
    have hfire := overruns_fired (enterPhase s 2 1500) hev
    have hdone := overruns_of_done (enterPhase s 2 1500)
    have hx : execComparisonStart s = .next (signDie (signDie (overruns (enterPhase s 2 1500)) .A) .B) := by
      refine if_neg ?_
      simp [hr]
      omega
    generalize overruns (enterPhase s 2 1500) = s2 at hb hfire hdone hx
    obtain ⟨hframe, hreacts⟩ := comparisonSigned s s2 hb
    refine ⟨_, { s with tide := s2.tide }, s2, hx, ?_, ?_, hb.2, fun ha hrun => hfire ha hrun, fun h => ?_, hframe, hreacts⟩
    · show { s with tide := s2.tide } = _
      rw [hb.1]
      rfl
    · show s2.tide.tick.toNat = _
      rw [hb.1]
      exact enterPhase_tick_toNat s 2 1500
    · have h2 := hdone h
      subst h2
      rfl
  · intro d hr
    show execSignatureFrameReceived d s = _
    simp [execSignatureFrameReceived, hr]
  · intro d f q hr hf
    have hk : ((s.setGwFor d q).setDie d ((s.die d).keepSig f)).die d = (s.die d).keepSig f := State.setDie_die _ _ _
    refine ⟨_, execSignatureFrameReceived_of_frame s d f q hr hf, ?_, ?_, ?_, ?_, hk.trans ?_⟩
    · cases d <;> rfl
    · cases d <;> rfl
    · cases d <;> rfl
    · cases d <;> rfl
    · unfold DieState.keepSig
      cases f <;> rfl
  · intro h
    have hn : (s.tide.running && decide (s.tide.ph = 2)) = false := by
      rcases h with h | h
      · rw [h, Bool.false_and]
      · rw [decide_eq_false h, Bool.and_false]
    constructor
    · show execSignatureDeadline s = _
      rw [execSignatureDeadline, hn]
      rfl
    · show execVerdictExchange s = _
      have hn' : (!s.tide.running || decide (s.tide.ph ≠ 2)) = true := by
        rcases h with h | h
        · rw [h]
          rfl
        · rw [decide_eq_true h, Bool.or_true]
      rw [execVerdictExchange, hn']
      rfl
  · intro h
    show execVerdictExchange s = _
    rw [execVerdictExchange, if_pos]
    simp [h]
  · intro hr hp
    refine ⟨_, ?_, formVerdicts_compared s 1560 hev⟩
    show execSignatureDeadline s = _
    rw [execSignatureDeadline, if_pos]
    rw [hr, decide_eq_true hp]
    rfl
  · intro hr hp hx
    have hc := formVerdicts_compared s 1575 hev
    have he : execVerdictExchange s = .next { sendVerdict (sendVerdict (formVerdict (formVerdict (reachTick s 1575) .A) .B) .A) .B with
        moor := { (sendVerdict (sendVerdict (formVerdict (formVerdict (reachTick s 1575) .A) .B) .A) .B).moor with
          exchanged := true } } := by
      refine if_neg ?_
      rw [hr, hx, decide_eq_false (not_not_intro hp)]
      decide
    generalize formVerdict (formVerdict (reachTick s 1575) .A) .B = u at hc he
    obtain ⟨hgw, hsigns⟩ := hc.keeps
    refine ⟨_, u, he, hc, ?_, fun d => ?_⟩
    · rw [sendVerdict_eq, sendVerdict_eq]
      rfl
    · rw [sendVerdict_eq, sendVerdict_eq, ← hgw, ← hsigns]
      cases d <;> rfl

end

section
/-!
SUPPORT. The commit fence: what forming the final moor sets changes, what a die's commit takes over, what the reports of the
fence leave, and O56.
-/

namespace Sys2Proof.Machine

/-! ## What forming the final sets changes -/

/-- What forming a die's final moor set may change of the die. -/
def FormsDie (x y : DieState) : Prop :=
  y = { x with degrade := y.degrade, degradeNext := y.degradeNext, found := y.found, mooring := y.mooring,
               sigDeadline := y.sigDeadline, verdictMoor := y.verdictMoor, verdict := y.verdict, final := y.final,
               finalMoor := y.finalMoor, finalCrc := y.finalCrc, formed := y.formed }

/-- What forming final sets may change of the moor sets: no commanded set, none in force, not the comparison's findings. -/
def FormsMoor (x y : MoorSt) : Prop :=
  y = { x with newG := y.newG, newM := y.newM, gSrc := y.gSrc, mSrc := y.mSrc, pendM := y.pendM, toA := y.toA, toB := y.toB,
               entries := y.entries, moorFrameAt := y.moorFrameAt, moorFrameDue := y.moorFrameDue }

/-- Everything forming the final moor sets may change while a tide runs; decisions to moor stand, and so do sources. -/
structure Forms (s t : State) : Prop where
  frame : t = { s with
    ev := t.ev, evb := t.evb, rcd := t.rcd, moor := t.moor, a := t.a, b := t.b, ports := t.ports, twin := t.twin, tx := t.tx,
    draws := t.draws, settle := t.settle, resets := t.resets, svc := t.svc, dict := { s.dict with commitBy := t.dict.commitBy } }
  evLength : t.ev.length = s.ev.length
  die : ∀ d, FormsDie (s.die d) (t.die d)
  moor : FormsMoor s.moor t.moor
  twin : ReactsTwin s.twin t.twin
  sent : s.tx <+: t.tx
  fired : ∀ src, s.fired src = true → t.fired src = true
  pendM : s.moor.pendM = true → t.moor.pendM = true
  mooring : ∀ d, (s.die d).mooring = true → (t.die d).mooring = true

theorem Forms.refl (s : State) : Forms s s :=
  ⟨rfl, rfl, fun _ => rfl, rfl, rfl, List.prefix_refl _, fun _ => id, id, fun _ => id⟩

theorem FormsDie.trans {x y z : DieState} (h : FormsDie x y) (g : FormsDie y z) : FormsDie x z := by
  unfold FormsDie at *; rw [h] at g; exact g

theorem FormsMoor.trans {x y z : MoorSt} (h : FormsMoor x y) (g : FormsMoor y z) : FormsMoor x z := by
  unfold FormsMoor at *; rw [h] at g; exact g

theorem Forms.trans {s t u : State} (h : Forms s t) (g : Forms t u) : Forms s u where
  frame := by have := g.frame; rw [h.frame] at this; exact this
  evLength := g.evLength.trans h.evLength
  die d := (h.die d).trans (g.die d)
  moor := h.moor.trans g.moor
  twin := h.twin.trans g.twin
  sent := h.sent.trans g.sent
  fired src hs := g.fired src (h.fired src hs)
  pendM hp := g.pendM (h.pendM hp)
  mooring d hd := g.mooring d (h.mooring d hd)

theorem Forms.runs {s t : State} (h : Forms s t) (d : Die) : t.runs d = s.runs d := by
  have hd := h.die d
  unfold FormsDie at hd
  unfold State.runs
  rw [hd]

theorem Forms.armed {s t : State} (h : Forms s t) (d : Die) : (t.die d).armed = (s.die d).armed := by
  have hd := h.die d
  unfold FormsDie at hd
  rw [hd]

theorem Forms.tide {s t : State} (h : Forms s t) : t.tide = s.tide := by rw [h.frame]

theorem ReactsDie.forms {x y : DieState} (h : ReactsDie x y) : FormsDie x y := by
  unfold ReactsDie at h
  unfold FormsDie
  rw [h]

/-- A firing while a tide runs that leaves the comparison's findings. -/
theorem Reacts.forms {s t : State} {f c : Prop} (h : Reacts s t) (hr : s.tide.running = true) (g : Firm f c s t) (hc : c) :
    Forms s t where
  frame := by
    have hf := h.frame
    rw [h.lio_eq hr] at hf
    rw [hf]
  evLength := h.evLength
  die d := (h.die d).forms
  moor := by
    have hm := h.moor
    unfold ReactsMoor at hm
    rw [g.cmpG hc] at hm
    unfold FormsMoor
    rw [hm]
  twin := h.twin
  sent := h.sent
  fired := h.fired
  pendM := g.pendM
  mooring := g.mooring

/-- A change of one die within what forming its final set may change. -/
theorem setDie_forms (s : State) (d : Die) (x : DieState) (h : FormsDie (s.die d) x)
    (hm : (s.die d).mooring = true → x.mooring = true) : Forms s (s.setDie d x) := by
  cases d
  · exact ⟨rfl, rfl, fun e => by cases e; exacts [h, rfl], rfl, rfl, List.prefix_refl _, fun _ => id, id,
      fun e => by cases e; exacts [hm, id]⟩
  · exact ⟨rfl, rfl, fun e => by cases e; exacts [rfl, h], rfl, rfl, List.prefix_refl _, fun _ => id, id,
      fun e => by cases e; exacts [id, hm]⟩

theorem entries_forms (s : State) (l : List (Nat × Tide)) : Forms s { s with moor := { s.moor with entries := l } } :=
  ⟨rfl, rfl, fun d => by cases d <;> rfl, rfl, rfl, List.prefix_refl _, fun _ => id, id, fun d => by cases d <;> exact id⟩

/-- A source that names no group fires while a tide runs. -/
theorem gwyFire_forms (s : State) (d : Die) (src : Nat) (hr : s.tide.running = true) : Forms s (gwyFire s d src 0) :=
  (fireAt_reacts s _ _ _ _).forms hr (fireAt_firm s src 0 0 (d = .B)) fun _ => .inr rfl

theorem verdictMoors_reacts (s : State) (d : Die) : Reacts s (verdictMoors s d) := by
  unfold verdictMoors
  dsimp only
  split
  · exact (moorDecide_reacts s d none).trans (moorEffects_reacts _)
  · exact moorDecide_reacts s d none

theorem verdictMoors_firm (s : State) (d : Die) : Firm True True s (verdictMoors s d) := by
  unfold verdictMoors
  dsimp only
  split
  · exact (moorDecide_firm True True s d none).trans (moorEffects_firm True True _)
  · exact moorDecide_firm True True s d none

/-- MOOR in a verdict: the die has decided (R330). -/
theorem verdictMoors_moors (s : State) (d : Die) :
    (verdictMoors s d).moor.pendM = true ∧ ((verdictMoors s d).die d).mooring = true := by
  obtain ⟨hp, hm⟩ := moorDecide_moors s d none
  unfold verdictMoors
  dsimp only
  split
  · have h := moorEffects_firm True True (moorDecide s d none)
    exact ⟨h.pendM hp, h.mooring d hm⟩
  · exact ⟨hp, hm⟩

/-- `Forms` that leaves both dies' final sets: of a die only what a firing may change. -/
structure Beside (s t : State) : Prop where
  forms : Forms s t
  die : ∀ d, ReactsDie (s.die d) (t.die d)

theorem Beside.refl (s : State) : Beside s s := ⟨.refl s, fun _ => rfl⟩

theorem Beside.trans {s t u : State} (h : Beside s t) (g : Beside t u) : Beside s u :=
  ⟨h.forms.trans g.forms, fun d => (h.die d).trans (g.die d)⟩

theorem Beside.running {s t : State} (h : Beside s t) (hr : s.tide.running = true) : t.tide.running = true := by
  rw [h.forms.tide, hr]

theorem gwyFire_beside (s : State) (d : Die) (src : Nat) (hr : s.tide.running = true) : Beside s (gwyFire s d src 0) :=
  ⟨gwyFire_forms s d src hr, (fireAt_reacts s _ _ _ _).die⟩

theorem verdictMoors_beside (s : State) (d : Die) (hr : s.tide.running = true) : Beside s (verdictMoors s d) :=
  ⟨(verdictMoors_reacts s d).forms hr (verdictMoors_firm s d) trivial, (verdictMoors_reacts s d).die⟩

theorem groupEnters_beside (s : State) (g : Nat) : Beside s (groupEnters s g) := by
  unfold groupEnters
  split
  · exact .refl s
  · exact ⟨entries_forms s _, fun d => by cases d <;> rfl⟩

theorem groupsEnter_beside (l : List Nat) (s : State) : Beside s (l.foldl groupEnters s) := by
  induction l generalizing s with
  | nil => exact .refl s
  | cons g l ih => exact (groupEnters_beside s g).trans (ih _)

/-! ## A die's final set (R167 to R169) -/

/-- The die with its final moor set. -/
def DieState.finally (x : DieState) : DieState :=
  let many : Bool := x.many || 15 < gCount x.finalSet
  let moor := x.verdictMoor || (x.otherVerdict.map (·.1)).getD false || many
  { x with final := x.finalSet, finalMoor := moor, finalCrc := finalCrcOf x.finalSet moor, formed := true }

theorem formFinal_of_not (s : State) (d : Die) (h : s.runs d = false ∨ (s.die d).armed = false ∨ (s.die d).formed = true) :
    formFinal s d = s := by
  refine if_pos ?_
  rcases h with h | h | h <;> simp [h]

/-- Forming a final set: the die's own registers first, then a decision to moor where it has one, then sources and entries. -/
theorem formFinal_of_due (s : State) (d : Die) (hr : s.tide.running = true)
    (h : ¬ (s.runs d = false ∨ (s.die d).armed = false ∨ (s.die d).formed = true)) :
    Beside (s.setDie d (s.die d).finally) (formFinal s d) ∧ ((s.die d).finally.finalMoor = true →
      (formFinal s d).moor.pendM = true ∧ ((formFinal s d).die d).mooring = true) := by
  have hn : ¬ (!s.runs d || !(s.die d).armed || (s.die d).formed) = true := by
    simpa [Bool.or_eq_true, or_assoc] using h
  unfold formFinal
  rw [if_neg hn]
  extract_lets gap fset many moor s1 s2 s3 s4 s5
  have hr1 : s1.tide.running = true := by cases d <;> exact hr
  have h2 : Beside s1 s2 := by
    simp only [s2]
    split
    · exact gwyFire_beside s1 d 12 hr1
    · exact .refl s1
  have h3 : Beside s2 s3 ∧ (moor = true → s3.moor.pendM = true ∧ (s3.die d).mooring = true) := by
    simp only [s3]
    split
    · exact ⟨verdictMoors_beside s2 d (h2.running hr1), fun _ => verdictMoors_moors s2 d⟩
    · next hc =>
      refine ⟨.refl s2, fun hm => ?_⟩
      rw [hm] at hc
      simpa using hc
  have h4 : Beside s3 s4 := groupsEnter_beside _ s3
  have hr4 : s4.tide.running = true := ((h2.trans h3.1).trans h4).running hr1
  have h5 : Beside s4 s5 := by
    simp only [s5]
    split
    · exact gwyFire_beside s4 d 13 hr4
    · exact .refl s4
  have h6 : Beside s5 (if gap = true then gwyFire s5 d 15 0 else s5) := by
    split
    · exact gwyFire_beside s5 d 15 (h5.running hr4)
    · exact .refl s5
  have h36 := (h4.trans h5).trans h6
  refine ⟨(h2.trans h3.1).trans h36, fun hm => ?_⟩
  obtain ⟨hp, hd⟩ := h3.2 hm
  exact ⟨h36.forms.pendM hp, h36.forms.mooring d hd⟩

theorem formFinal_forms (s : State) (d : Die) (hr : s.tide.running = true) : Forms s (formFinal s d) := by
  by_cases h : s.runs d = false ∨ (s.die d).armed = false ∨ (s.die d).formed = true
  · rw [formFinal_of_not s d h]
    exact .refl s
  · exact (setDie_forms s d (s.die d).finally rfl id).trans (formFinal_of_due s d hr h).1.forms

/-- A die's final set leaves the other die what a firing may not change. -/
theorem formFinal_other (s : State) (d : Die) (hr : s.tide.running = true) :
    ReactsDie (s.die (Die.other d)) ((formFinal s d).die (Die.other d)) := by
  by_cases h : s.runs d = false ∨ (s.die d).armed = false ∨ (s.die d).formed = true
  · rw [formFinal_of_not s d h]
    rfl
  · have hd := (formFinal_of_due s d hr h).1.die (Die.other d)
    rwa [State.setDie_other] at hd

/-- A verdict of the die's own with MOOR: its final set moors the module, and it has decided (R57, R167, R330). -/
theorem formFinal_moors (s : State) (d : Die) (hr : s.tide.running = true) (hd : s.runs d = true)
    (ha : (s.die d).armed = true) (hf : (s.die d).formed = false) (hv : (s.die d).verdictMoor = true) :
    ((formFinal s d).die d).finalMoor = true ∧ ((formFinal s d).die d).mooring = true
      ∧ (formFinal s d).moor.pendM = true := by
  have h : ¬ (s.runs d = false ∨ (s.die d).armed = false ∨ (s.die d).formed = true) := by simp [hd, ha, hf]
  have hm : (s.die d).finally.finalMoor = true := by simp [DieState.finally, hv]
  obtain ⟨hb, hdec⟩ := formFinal_of_due s d hr h
  obtain ⟨hp, hmoor⟩ := hdec hm
  have hx := hb.die d
  rw [State.setDie_die] at hx
  unfold ReactsDie at hx
  refine ⟨?_, hmoor, hp⟩
  rw [hx]
  exact hm

/-- A die without an armed net, or one that has its final set already, changes nothing but its own final set. -/
theorem plainFinal_forms (s : State) (d : Die) : Forms s (plainFinal s d) := by
  unfold plainFinal
  split
  · exact .refl s
  · exact setDie_forms s d _ rfl id

theorem plainFinal_of_formed (s : State) (d : Die) (h : (s.die d).formed = true) : plainFinal s d = s := if_pos h

theorem plainFinal_formed (s : State) (d : Die) : ((plainFinal s d).die d).formed = true := by
  unfold plainFinal
  split
  · assumption
  · cases d <;> rfl

theorem plainFinal_finalMoor (s : State) (d e : Die) : ((plainFinal s d).die e).finalMoor = (s.die e).finalMoor := by
  unfold plainFinal
  split
  · rfl
  · cases d <;> cases e <;> rfl

theorem plainFinal_other (s : State) (d : Die) : (plainFinal s d).die (Die.other d) = s.die (Die.other d) := by
  unfold plainFinal
  split
  · rfl
  · cases d <;> rfl

/-- Both dies have their final sets. -/
def finals (s : State) : State := plainFinal (plainFinal (formFinal (formFinal s .A) .B) .A) .B

theorem finals_forms (s : State) (hr : s.tide.running = true) : Forms s (finals s) := by
  have hA := formFinal_forms s .A hr
  have hB := formFinal_forms (formFinal s .A) .B (by rw [hA.tide, hr])
  exact (hA.trans hB).trans ((plainFinal_forms _ .A).trans (plainFinal_forms _ .B))

theorem finals_formed (s : State) (d : Die) : ((finals s).die d).formed = true := by
  cases d
  · exact (congrArg DieState.formed (plainFinal_other _ .B)).trans (plainFinal_formed _ .A)
  · exact plainFinal_formed _ .B

/-- Sets that have been formed stand. -/
theorem finals_of_formed (s : State) (ha : s.a.formed = true) (hb : s.b.formed = true) : finals s = s := by
  unfold finals
  rw [formFinal_of_not s .A (.inr (.inr ha)), formFinal_of_not s .B (.inr (.inr hb)), plainFinal_of_formed s .A ha,
    plainFinal_of_formed s .B hb]

/-- A verdict with MOOR that waits for its final set: the set moors the module (R57, R167). -/
theorem finals_moors (s : State) (d : Die) (hr : s.tide.running = true) (hd : s.runs d = true) (ha : (s.die d).armed = true)
    (hf : (s.die d).formed = false) (hv : (s.die d).verdictMoor = true) :
    ((finals s).die d).finalMoor = true ∧ ((finals s).die d).mooring = true ∧ (finals s).moor.pendM = true := by
  have hfA := formFinal_forms s .A hr
  have hrA : (formFinal s .A).tide.running = true := by rw [hfA.tide, hr]
  have hfB := formFinal_forms (formFinal s .A) .B hrA
  have hP := (plainFinal_forms (formFinal (formFinal s .A) .B) .A).trans (plainFinal_forms _ .B)
  have hfinal : ((finals s).die d).finalMoor = ((formFinal (formFinal s .A) .B).die d).finalMoor := by
    unfold finals
    rw [plainFinal_finalMoor, plainFinal_finalMoor]
  have h2 : ((formFinal (formFinal s .A) .B).die d).finalMoor = true
      ∧ ((formFinal (formFinal s .A) .B).die d).mooring = true ∧ (formFinal (formFinal s .A) .B).moor.pendM = true := by
    cases d
    · obtain ⟨h1, h2, h3⟩ := formFinal_moors s .A hr hd ha hf hv
      have ho := formFinal_other (formFinal s .A) .B hrA
      unfold ReactsDie at ho
      refine ⟨?_, hfB.mooring .A h2, hfB.pendM h3⟩
      exact (congrArg DieState.finalMoor ho).trans h1
    · have ho := formFinal_other s .A hr
      unfold ReactsDie at ho
      refine formFinal_moors (formFinal s .A) .B hrA ((hfA.runs .B).trans hd) ((hfA.armed .B).trans ha) ?_ ?_
      · exact (congrArg DieState.formed ho).trans hf
      · exact (congrArg DieState.verdictMoor ho).trans hv
  obtain ⟨h2, h3, h4⟩ := h2
  exact ⟨hfinal.trans h2, hP.mooring d h3, hP.pendM h4⟩

/-! ## A comparison that has not reached its verdict (R57) -/

theorem lateDie_forms (s : State) (d : Die) : Forms s (lateDie s d) := by
  unfold lateDie
  split
  · exact setDie_forms s d _ rfl id
  · exact .refl s

theorem lateDie_other (s : State) (d : Die) : (lateDie s d).die (Die.other d) = s.die (Die.other d) := by
  unfold lateDie
  split
  · cases d <;> rfl
  · rfl

theorem lateDie_late (s : State) (d : Die) (h : undecided s d = true) :
    ((lateDie s d).die d).verdictMoor = true ∧ ((lateDie s d).die d).formed = (s.die d).formed := by
  unfold lateDie
  rw [if_pos h]
  cases d <;> exact ⟨rfl, rfl⟩

theorem undecided_of_die {s t : State} {d : Die} (h : t.die d = s.die d) : undecided t d = undecided s d := by
  unfold undecided State.runs
  rw [h]

/-- Both dies' incomplete comparisons stand as MOOR. -/
theorem lateDies_late (s : State) (d : Die) (h : undecided s d = true) :
    ((lateDie (lateDie s .A) .B).die d).verdictMoor = true
      ∧ ((lateDie (lateDie s .A) .B).die d).formed = (s.die d).formed := by
  cases d
  · rw [show (lateDie (lateDie s .A) .B).die .A = (lateDie s .A).die .A from lateDie_other _ .B]
    exact lateDie_late s .A h
  · have ho : (lateDie s .A).die .B = s.die .B := lateDie_other s .A
    obtain ⟨hv, hf⟩ := lateDie_late (lateDie s .A) .B ((undecided_of_die ho).trans h)
    exact ⟨hv, hf.trans (congrArg DieState.formed ho)⟩

theorem fire_two_beside (s : State) (gs : GSet) (hr : s.tide.running = true) : Beside s (fire s 2 gs 0) :=
  ⟨(fire_reacts s 2 gs 0).forms hr (fireAt_firm s 2 gs 0 false) fun _ => .inl (Nat.le_refl 2), (fire_reacts s 2 gs 0).die⟩

theorem cmpLate_of_decided (s : State) (hA : undecided s .A = false) (hB : undecided s .B = false) : cmpLate s = s := by
  unfold cmpLate
  rw [hA, hB]
  rfl

/-- Source 2 fires once for the digest and once with every group, and changes no die's verdict. -/
theorem cmpLate_of_late (s : State) (hr : s.tide.running = true) (h : (undecided s .A || undecided s .B) = true) :
    Beside (lateDie (lateDie s .A) .B) (cmpLate s)
      ∧ (s.ev.length = 18 → s.runs .A = true → (cmpLate s).fired 2 = true) := by
  have h0 : Forms s (lateDie (lateDie s .A) .B) := (lateDie_forms s .A).trans (lateDie_forms _ .B)
  unfold cmpLate
  rw [if_pos h]
  generalize lateDie (lateDie s .A) .B = s1 at h0 ⊢
  have hr1 : s1.tide.running = true := by rw [h0.tide, hr]
  have h1 : Beside s1 (fire1 s1 2) := fire_two_beside s1 0 hr1
  have h2 := fire_two_beside (fire1 s1 2) (BitVec.ofNat 512 (2 ^ 512 - 1)) (h1.running hr1)
  exact ⟨h1.trans h2, fun hl ha =>
    h2.forms.fired 2 ((fire1_fires s1 ⟨2, by decide⟩ (h0.evLength.trans hl)).2 ((h0.runs .A).trans ha))⟩

theorem cmpLate_forms (s : State) (hr : s.tide.running = true) : Forms s (cmpLate s) := by
  by_cases h : (undecided s .A || undecided s .B) = true
  · exact ((lateDie_forms s .A).trans (lateDie_forms _ .B)).trans (cmpLate_of_late s hr h).1.forms
  · simp only [Bool.or_eq_true, not_or, Bool.not_eq_true] at h
    rw [cmpLate_of_decided s h.1 h.2]
    exact .refl s

/-- An undecided die's comparison counts as one that decides to moor. -/
theorem cmpLate_late (s : State) (d : Die) (hr : s.tide.running = true) (h : undecided s d = true) :
    ((cmpLate s).die d).verdictMoor = true ∧ ((cmpLate s).die d).formed = (s.die d).formed := by
  have hany : (undecided s .A || undecided s .B) = true := by cases d <;> simp [h]
  have hd := (cmpLate_of_late s hr hany).1.die d
  obtain ⟨hv, hf⟩ := lateDies_late s d h
  unfold ReactsDie at hd
  exact ⟨(congrArg DieState.verdictMoor hd).trans hv, (congrArg DieState.formed hd).trans hf⟩

theorem undecided_fires (s : State) (d : Die) (hr : s.tide.running = true) (hl : s.ev.length = 18)
    (h : undecided s d = true) (ha : s.runs .A = true) : (cmpLate s).fired 2 = true :=
  (cmpLate_of_late s hr (by cases d <;> simp [h])).2 hl ha

/-! ## Both dies commit (R57, R153, R170) -/

theorem rowFlip_frame (s : State) (d : Die) (a : Nat) (m : BitVec 24) : ∃ rs, s.rowFlip d a m = { s with rows := rs } := by
  unfold State.rowFlip
  split
  · exact ⟨_, rfl⟩
  · exact ⟨s.rows, rfl⟩

theorem rowFlips_frame {α : Type} (d : Die) (a : α → Nat) (m : α → BitVec 24) (l : List α) (s : State) :
    ∃ rs, l.foldl (fun s r => s.rowFlip d (a r) (m r)) s = { s with rows := rs } := by
  induction l generalizing s with
  | nil => exact ⟨s.rows, rfl⟩
  | cons r l ih =>
    obtain ⟨r1, h1⟩ := rowFlip_frame s d (a r) (m r)
    obtain ⟨r2, h2⟩ := ih (s.rowFlip d (a r) (m r))
    exact ⟨r2, by rw [List.foldl_cons, h2, h1]⟩

theorem rowsSwap_frame (s : State) (d : Die) : ∃ rs, s.rowsSwap d = { s with rows := rs } := by
  unfold State.rowsSwap
  extract_lets c w s1 s2
  obtain ⟨r2, h2⟩ := rowFlips_frame d (fun r : Nat × BitVec 24 => workBase + r.1) (fun r => r.2) c s1
  obtain ⟨r3, h3⟩ := rowFlips_frame d (fun r : Nat × BitVec 24 => r.1 - workBase) (fun r => r.2) w s2
  exact ⟨r3, h3.trans (congrArg (fun x : State => { x with rows := r3 }) (h2.trans rfl))⟩

/-- The die as a fence leaves it. -/
def fenced (s : State) (d : Die) (g : GSet) (m : Bool) : DieState :=
  if s.runs d && (s.die d).armed then commitDie (s.die d) ((s.die d).final ||| g) (m || (s.die d).finalMoor) else s.die d

theorem fenceDie_frame (s : State) (d : Die) (g : GSet) (m : Bool) :
    ∃ rs, fenceDie s d g m = { s.setDie d (fenced s d g m) with rows := rs } := by
  unfold fenceDie fenced
  split
  · obtain ⟨rs, h⟩ := rowsSwap_frame s d
    rw [h]
    exact ⟨rs, by cases d <;> rfl⟩
  · exact ⟨s.rows, by cases d <;> rfl⟩

/-- Each die commits by itself. -/
theorem fenceDies_frame (s : State) (g : GSet) (m : Bool) :
    ∃ rs, fenceDie (fenceDie s .A g m) .B g m = { s with a := fenced s .A g m, b := fenced s .B g m, rows := rs } := by
  obtain ⟨r1, h1⟩ := fenceDie_frame s .A g m
  obtain ⟨r2, h2⟩ := fenceDie_frame (fenceDie s .A g m) .B g m
  refine ⟨r2, ?_⟩
  rw [h2, h1]
  rfl

/-! ## Records and reports of the fence (R180, R289, R411) -/

theorem recPoint_frame (s : State) (p : Nat) (new old : Word) : ∃ r, recPoint s p new old = { s with rcd := r } := by
  unfold recPoint recMake recAdd
  split
  · exact ⟨_, rfl⟩
  · split
    · exact ⟨s.rcd, rfl⟩
    · exact ⟨_, rfl⟩

theorem pointRecords_frame (old s : State) : ∃ r, pointRecords old s = { s with rcd := r } := by
  unfold pointRecords
  generalize s.netA.decls = l
  induction l generalizing s with
  | nil => exact ⟨s.rcd, rfl⟩
  | cons x l ih =>
    rw [List.foldl_cons]
    dsimp only
    split
    · split
      · obtain ⟨r, h⟩ := recPoint_frame s x.1 (committedWord s .A x.1) (committedWord old .A x.1)
        obtain ⟨r2, h2⟩ := ih (recPoint s x.1 (committedWord s .A x.1) (committedWord old .A x.1))
        exact ⟨r2, by rw [h2, h]⟩
      · exact ih s
    · exact ih s

theorem reportSub_frame (s : State) (k : Nat) (u : Sub) (t : Tide) (val : Octets) :
    ∃ x, reportSub s k u t val = { s with svc := x } := by
  unfold reportSub
  dsimp only
  split
  · exact ⟨_, rfl⟩
  · split <;> exact ⟨_, rfl⟩

theorem reports_frame {α : Type} (f : State → α → State) (h : ∀ s a, ∃ x, f s a = { s with svc := x }) (l : List α) (s : State) :
    ∃ x, l.foldl f s = { s with svc := x } := by
  induction l generalizing s with
  | nil => exact ⟨s.svc, rfl⟩
  | cons a l ih =>
    obtain ⟨x, hx⟩ := h s a
    obtain ⟨y, hy⟩ := ih (f s a)
    exact ⟨y, by rw [List.foldl_cons, hy, hx]⟩

theorem fenceReports_frame (s : State) : ∃ x, fenceReports s = { s with svc := x } := by
  unfold fenceReports
  refine reports_frame _ (fun s a => ?_) _ s
  dsimp only
  split
  · exact reportSub_frame _ _ _ _ _
  · exact ⟨s.svc, rfl⟩

theorem provNotify_frame (s : State) : ∃ x, provNotify s = { s with svc := x } := by
  unfold provNotify
  refine reports_frame _ (fun s a => ?_) _ s
  dsimp only
  split
  · split
    · exact ⟨s.svc, rfl⟩
    · exact reportSub_frame _ _ _ _ _
  · exact ⟨s.svc, rfl⟩

/-- EVA's registers at the end of a tide: provisional values are cancelled, its counts show, its bank changes. -/
def EvaBlk.fenced (e : EvaBlk) (armed : Bool) : EvaBlk :=
  { e with prov := (e.prov.filter fun x => x.2.2).map fun x => (x.1, 0, true), cancel := e.cancelNow, recomp := e.recompNow,
           bank := if armed then !e.bank else e.bank }

theorem EvaBlk.fenced_prov (e : EvaBlk) (armed : Bool) : ∀ x, x ∈ (e.fenced armed).prov → x.2.1 = 0 ∧ x.2.2 = true := by
  intro x hx
  simp only [EvaBlk.fenced, List.mem_map] at hx
  obtain ⟨y, _, rfl⟩ := hx
  exact ⟨rfl, rfl⟩

theorem provDiscard_frame (s : State) : ∃ x, provDiscard s = { s with svc := x, eva := s.eva.fenced s.a.armed } := by
  unfold provDiscard
  obtain ⟨x, h⟩ := provNotify_frame (s.modEva fun e => e.fenced s.a.armed)
  exact ⟨x, h⟩

/-! ## The fence -/

/-- The fence's phase begins: its place among the peaks, and no difference from a Leader's groups where no mirror is adopted. -/
def fenceStart (s : State) : State :=
  budgetPeak (diffNone (enterPhase s 2 1650)) 3 (phaseEnd (enterPhase s 2 1650) 1650)

/-- The final moor sets of the fence. -/
def fenceFinals (s : State) : State := finals (cmpLate (fenceStart s))

/-- The committed tide, from the state that holds its final moor sets. -/
def fenceCommit (s : State) : State :=
  let t := fenceDie (fenceDie (faultFence s) .A s.mooredG (s.mooredM || s.moor.pendM)) .B s.mooredG (s.mooredM || s.moor.pendM)
  { t with tide := { t.tide with cfence := true, cnum := t.now } }

/-- The fence but for its edge. -/
def fenceEnd (s : State) : State :=
  let t := fenceCommit (fenceFinals s)
  provDiscard (fenceReports (if s.a.armed && s.runs .A then pointRecords s t else t))

theorem execCommitFence_eq (s : State) (hr : s.tide.running = true) (hc : s.tide.cfence = false) (hp : s.tide.ph.toNat < 3) :
    exec .commitFence s = .next (capPulse (fenceEnd s) 3) := by
  refine if_neg ?_
  simp only [hr, hc, Bool.not_true, Bool.or_false, Bool.false_or, decide_eq_true_eq, not_le]
  exact hp

theorem diffNone_frame (s : State) : diffNone s = { s with twin := (diffNone s).twin } := by
  unfold diffNone
  split <;> rfl

theorem diffNone_twin (s : State) (h : s.adopts = false) :
    (diffNone s).twin.groupDiff = 0 ∧ (diffNone s).twin.gdiff = 0 := by
  unfold diffNone
  rw [if_neg (by simp [h])]
  exact ⟨rfl, rfl⟩

theorem fenceStart_frame (s : State) : fenceStart s = { s with
    twin := (diffNone (enterPhase s 2 1650)).twin,
    tide := { s.tide with
      ph := 2, tick := (enterPhase s 2 1650).tide.tick,
      budget := listMod s.tide.budget 3 fun x => if x < phaseEnd (enterPhase s 2 1650) 1650 then phaseEnd (enterPhase s 2 1650) 1650
        else x } } := by
  unfold fenceStart budgetPeak
  rw [diffNone_frame]
  rfl

/-- The committed tide, from the state that holds its final moor sets: the banks, what is moored, and its number. -/
theorem fenceCommit_frame (s : State) : ∃ rs, fenceCommit s = { s with
    a := fenced s .A s.mooredG (s.mooredM || s.moor.pendM), b := fenced s .B s.mooredG (s.mooredM || s.moor.pendM), rows := rs,
    moor := (faultFence s).moor, tide := { s.tide with cfence := true, cnum := s.now } } := by
  obtain ⟨rs, h⟩ := fenceDies_frame (faultFence s) s.mooredG (s.mooredM || s.moor.pendM)
  refine ⟨rs, ?_⟩
  unfold fenceCommit
  rw [h]
  rfl

/-- Records and reports of the fence leave what it has committed. -/
theorem fenceTold_frame (s t : State) (c : Bool) : ∃ r x,
    provDiscard (fenceReports (if c then pointRecords s t else t))
      = { t with rcd := r, svc := x, eva := t.eva.fenced t.a.armed } := by
  have hz : ∃ r, (if c then pointRecords s t else t) = { t with rcd := r } := by
    split
    · exact pointRecords_frame s t
    · exact ⟨t.rcd, rfl⟩
  obtain ⟨r, hr⟩ := hz
  obtain ⟨x1, h1⟩ := fenceReports_frame { t with rcd := r }
  obtain ⟨x, h2⟩ := provDiscard_frame { t with rcd := r, svc := x1 }
  exact ⟨r, x, by rw [hr, h1, h2]⟩

/-- What the fence does from the final moor sets on. -/
theorem fenceEnd_frame (s : State) : ∃ r x rs, let y := fenceFinals s
    fenceEnd s = { y with
      a := fenced y .A y.mooredG (y.mooredM || y.moor.pendM), b := fenced y .B y.mooredG (y.mooredM || y.moor.pendM), rows := rs,
      moor := (faultFence y).moor, tide := { y.tide with cfence := true, cnum := y.now }, rcd := r, svc := x,
      eva := y.eva.fenced (fenced y .A y.mooredG (y.mooredM || y.moor.pendM)).armed } := by
  unfold fenceEnd
  generalize fenceFinals s = y
  obtain ⟨rs, h⟩ := fenceCommit_frame y
  obtain ⟨r, x, h2⟩ := fenceTold_frame s (fenceCommit y) (s.a.armed && s.runs .A)
  refine ⟨r, x, rs, ?_⟩
  dsimp only
  rw [h2, h]

theorem fenced_armed (s : State) (d : Die) (g : GSet) (m : Bool) : (fenced s d g m).armed = (s.die d).armed := by
  unfold fenced
  split <;> rfl

theorem fenced_sets (s : State) (d : Die) (g : GSet) (m : Bool) :
    (fenced s d g m).final = (s.die d).final ∧ (fenced s d g m).finalMoor = (s.die d).finalMoor
      ∧ (fenced s d g m).formed = (s.die d).formed ∧ (fenced s d g m).mooring = (s.die d).mooring := by
  unfold fenced
  split <;> exact ⟨rfl, rfl, rfl, rfl⟩

theorem fenceFinals_forms (s : State) (hr : s.tide.running = true) : Forms (fenceStart s) (fenceFinals s) := by
  have h1 : (fenceStart s).tide.running = true := by rw [fenceStart_frame]; exact hr
  have h2 := cmpLate_forms (fenceStart s) h1
  exact h2.trans (finals_forms _ (by rw [h2.tide, h1]))

theorem fenceStart_die (s : State) (d : Die) : (fenceStart s).die d = s.die d := by
  rw [fenceStart_frame]
  cases d <;> rfl

theorem fenceEnd_die (s : State) (d : Die) : (fenceEnd s).die d
    = fenced (fenceFinals s) d (fenceFinals s).mooredG ((fenceFinals s).mooredM || (fenceFinals s).moor.pendM) := by
  obtain ⟨r, x, rs, h⟩ := fenceEnd_frame s
  rw [h]
  cases d <;> rfl

theorem fenceEnd_moor (s : State) : (fenceEnd s).moor = (faultFence (fenceFinals s)).moor := by
  obtain ⟨r, x, rs, h⟩ := fenceEnd_frame s
  rw [h]

theorem fenceEnd_twin (s : State) : (fenceEnd s).twin = (fenceFinals s).twin := by
  obtain ⟨r, x, rs, h⟩ := fenceEnd_frame s
  rw [h]

theorem fenceEnd_fired (s : State) (src : Nat) (h : (fenceFinals s).fired src = true) : (fenceEnd s).fired src = true := by
  obtain ⟨r, x, rs, he⟩ := fenceEnd_frame s
  rw [he]
  exact h

theorem fenceEnd_sets (s : State) (d : Die) : ((fenceEnd s).die d).final = ((fenceFinals s).die d).final
    ∧ ((fenceEnd s).die d).finalMoor = ((fenceFinals s).die d).finalMoor
    ∧ ((fenceEnd s).die d).formed = ((fenceFinals s).die d).formed
    ∧ ((fenceEnd s).die d).mooring = ((fenceFinals s).die d).mooring := by
  rw [fenceEnd_die]
  exact fenced_sets _ _ _ _

/-- Where both final sets stand and no comparison is late, the fence adds nothing to them. -/
theorem fenceFinals_of_formed (s : State) (ha : s.a.formed = true) (hb : s.b.formed = true) (hA : undecided s .A = false)
    (hB : undecided s .B = false) : fenceFinals s = fenceStart s := by
  have hu : ∀ d, undecided (fenceStart s) d = undecided s d := fun d => undecided_of_die (fenceStart_die s d)
  unfold fenceFinals
  rw [cmpLate_of_decided _ ((hu .A).trans hA) ((hu .B).trans hB)]
  refine finals_of_formed _ ?_ ?_
  · exact (congrArg DieState.formed (fenceStart_die s .A)).trans ha
  · exact (congrArg DieState.formed (fenceStart_die s .B)).trans hb

section
variable {s : State} (hr : s.tide.running = true)
include hr

theorem fenceEnd_tide : (fenceEnd s).tide = { (fenceStart s).tide with cfence := true, cnum := s.now } := by
  obtain ⟨r, x, rs, h⟩ := fenceEnd_frame s
  have ht := (fenceFinals_forms s hr).tide
  have hn : (fenceFinals s).now = s.now := by
    unfold State.now
    rw [ht, fenceStart_frame]
  rw [h]
  dsimp only
  rw [hn, ht]

theorem fenceEnd_eva : (fenceEnd s).eva = s.eva.fenced s.a.armed := by
  obtain ⟨r, x, rs, h⟩ := fenceEnd_frame s
  have hf := fenceFinals_forms s hr
  have ha : (fenceFinals s).a.armed = s.a.armed := (hf.armed .A).trans (congrArg DieState.armed (fenceStart_die s .A))
  have he : (fenceFinals s).eva = s.eva := by rw [hf.frame, fenceStart_frame]
  rw [h]
  dsimp only
  rw [fenced_armed, he]
  exact congrArg _ ha

/-- What the fence leaves unchanged (R57). -/
theorem fenceEnd_rest : let u := fenceEnd s
    u = { s with
      tide := u.tide, a := u.a, b := u.b, ev := u.ev, evb := u.evb, rcd := u.rcd, moor := u.moor, ports := u.ports,
      twin := u.twin, tx := u.tx, draws := u.draws, settle := u.settle, resets := u.resets, svc := u.svc, eva := u.eva,
      rows := u.rows, dict := { s.dict with commitBy := u.dict.commitBy } } := by
  obtain ⟨r, x, rs, h⟩ := fenceEnd_frame s
  have hf := (fenceFinals_forms s hr).frame
  have h0 := fenceStart_frame s
  generalize fenceEnd s = u at h ⊢
  generalize fenceFinals s = y at h hf
  generalize fenceStart s = z at h0 hf
  rw [h0] at hf
  rw [hf] at h
  rw [h]

theorem fenceEnd_sent : s.tx <+: (fenceEnd s).tx := by
  obtain ⟨r, x, rs, h⟩ := fenceEnd_frame s
  have hs := (fenceFinals_forms s hr).sent
  rw [h]
  rw [fenceStart_frame] at hs
  exact hs

/-- The moor sets of the final sets' state are the fence's but for what forming them may change. -/
theorem fenceFinals_moor : FormsMoor s.moor (fenceFinals s).moor := by
  have h := (fenceFinals_forms s hr).moor
  rw [fenceStart_frame] at h
  exact h

theorem fenceEnd_moor_eq : let u := fenceEnd s
    u.moor = { s.moor with
      faultG := s.moor.faultG ||| u.a.final ||| u.b.final ||| s.moor.cmpG, cmpG := 0, faultM := u.moor.faultM,
      pendM := false, newG := u.moor.newG, newM := u.moor.newM, gSrc := u.moor.gSrc, mSrc := u.moor.mSrc,
      toA := u.moor.toA, toB := u.moor.toB, entries := u.moor.entries, moorFrameAt := u.moor.moorFrameAt,
      moorFrameDue := u.moor.moorFrameDue } := by
  intro u
  have ha : u.a.final = (fenceFinals s).a.final := (fenceEnd_sets s .A).1
  have hb : u.b.final = (fenceFinals s).b.final := (fenceEnd_sets s .B).1
  have hu : u.moor = (faultFence (fenceFinals s)).moor := fenceEnd_moor s
  have hm := fenceFinals_moor hr
  unfold FormsMoor at hm
  rw [ha, hb, hu]
  unfold faultFence State.faultMoored
  dsimp only
  rw [hm]

theorem fenceEnd_faultM : (fenceEnd s).moor.faultM = (s.moor.faultM || (fenceFinals s).moor.pendM) := by
  have hm := fenceFinals_moor hr
  unfold FormsMoor at hm
  have hf : (fenceFinals s).moor.faultM = s.moor.faultM := by rw [hm]
  rw [fenceEnd_moor, ← hf]
  rfl

theorem fenceEnd_faultMoored (h : s.faultMoored = true) : (fenceEnd s).moor.faultM = true := by
  rw [fenceEnd_faultM hr, Bool.or_eq_true]
  rw [State.faultMoored, Bool.or_eq_true] at h
  refine h.imp_right fun hp => (fenceFinals_forms s hr).pendM ?_
  rw [fenceStart_frame]
  exact hp

theorem fenceEnd_twinDiff (h : s.adopts = false) : (fenceEnd s).twin.groupDiff = 0 ∧ (fenceEnd s).twin.gdiff = 0 := by
  have ht := (fenceFinals_forms s hr).twin
  unfold ReactsTwin at ht
  obtain ⟨h1, h2⟩ := diffNone_twin (enterPhase s 2 1650) h
  rw [fenceEnd_twin, ht, fenceStart_frame]
  exact ⟨h1, h2⟩

/-- Each running die with an armed net commits, overlaid by its final set and by what is moored in force (R57, R153, R170). -/
theorem fenceEnd_commits (d : Die) : let u := fenceEnd s
    if s.runs d && (s.die d).armed then
      (u.die d).committed = (s.die d).working.map (fun c => (c.1, unprov c.2))
      ∧ (u.die d).working = (s.die d).committed ∧ (u.die d).inst = (s.die d).shadow
      ∧ (u.die d).overlay = (u.die d).final ||| s.mooredG
      ∧ (u.die d).overlayAll = (s.mooredM || u.moor.faultM || (u.die d).finalMoor)
    else (u.die d).committed = (s.die d).committed ∧ (u.die d).working = (s.die d).working
      ∧ (u.die d).inst = (s.die d).inst
      ∧ (u.die d).overlay = (s.die d).overlay ∧ (u.die d).overlayAll = (s.die d).overlayAll := by
  intro u
  have hf := fenceFinals_forms s hr
  have hd := hf.die d
  rw [fenceStart_die] at hd
  unfold FormsDie at hd
  have hm := fenceFinals_moor hr
  unfold FormsMoor at hm
  have hru : (fenceFinals s).runs d = s.runs d := by
    unfold State.runs
    rw [hd]
  have har : ((fenceFinals s).die d).armed = (s.die d).armed := by rw [hd]
  have hg : (fenceFinals s).mooredG = s.mooredG := by
    unfold State.mooredG MoorSt.comG
    rw [hm]
  have hM : (fenceFinals s).mooredM = s.mooredM := by
    unfold State.mooredM MoorSt.comM
    rw [hm]
  have hu : u.die d = fenced (fenceFinals s) d s.mooredG (s.mooredM || (fenceFinals s).moor.pendM) := by
    rw [← hg, ← hM]
    exact fenceEnd_die s d
  have hall : (s.mooredM || u.moor.faultM) = (s.mooredM || (fenceFinals s).moor.pendM) := by
    rw [show u.moor.faultM = _ from fenceEnd_faultM hr]
    unfold State.mooredM
    cases s.moor.faultM <;> simp
  rw [hall, hu]
  unfold fenced
  rw [hru, har]
  split
  · rw [hd]
    exact ⟨rfl, rfl, rfl, rfl, rfl⟩
  · rw [hd]
    exact ⟨rfl, rfl, rfl, rfl, rfl⟩

/-- A comparison that has not reached its verdict fires source 2 and moors the module (R57). -/
theorem fenceEnd_undecided (hl : s.ev.length = 18) (d : Die) (h : undecided s d = true) : let u := fenceEnd s
    (s.runs .A = true → u.fired 2 = true)
      ∧ ((s.die d).formed = false → (u.die d).finalMoor = true ∧ (u.die d).mooring = true ∧ u.moor.faultM = true) := by
  intro u
  have h0 := fenceStart_frame s
  have hr1 : (fenceStart s).tide.running = true := by rw [h0]; exact hr
  have hu : undecided (fenceStart s) d = true := (undecided_of_die (fenceStart_die s d)).trans h
  have hc := cmpLate_forms (fenceStart s) hr1
  have hr2 : (cmpLate (fenceStart s)).tide.running = true := by rw [hc.tide, hr1]
  have hf := finals_forms _ hr2
  refine ⟨fun ha => fenceEnd_fired s 2 (hf.fired 2 ?_), fun hn => ?_⟩
  · exact undecided_fires (fenceStart s) d hr1 (by rw [h0]; exact hl) hu (by rw [h0]; exact ha)
  · obtain ⟨hv, hfm⟩ := cmpLate_late (fenceStart s) d hr1 hu
    have hu' := hu
    simp only [undecided, Bool.and_eq_true] at hu'
    obtain ⟨⟨hrun, harm⟩, _⟩ := hu'
    have hn2 : ((cmpLate (fenceStart s)).die d).formed = false := by rw [hfm, fenceStart_die, hn]
    obtain ⟨h1, h2, h3⟩ := finals_moors _ d hr2 ((hc.runs d).trans hrun) ((hc.armed d).trans harm) hn2 hv
    obtain ⟨_, e2, _, e4⟩ := fenceEnd_sets s d
    refine ⟨e2.trans h1, e4.trans h2, ?_⟩
    refine (fenceEnd_faultM hr).trans ?_
    rw [show (fenceFinals s).moor.pendM = true from h3, Bool.or_true]

end

/-- The end of the comparison among the tide's peaks (R78). -/
theorem fenceStart_budget (s : State) (hl : 3 < s.tide.budget.length) : ((fenceStart s).tide.budget.getD 3 0).toNat
    = max (s.tide.budget.getD 3 0).toNat (phaseEnd (enterPhase s 2 1650) 1650).toNat := by
  rw [fenceStart_frame]
  dsimp only
  rw [listMod_getD_self _ _ _ _ hl]
  split
  · next h => rw [BitVec.lt_def] at h; omega
  · next h => rw [BitVec.lt_def] at h; omega

theorem fenceStart_budget_ne (s : State) (j : Nat) (hj : j ≠ 3) :
    (fenceStart s).tide.budget.getD j 0 = s.tide.budget.getD j 0 := by
  rw [fenceStart_frame]
  exact listMod_getD_ne _ _ _ _ _ hj

/-- The place of the fence's end in the tide follows from the tick alone. -/
theorem phaseEnd_of_tick {s t : State} (h : t.tide.tick = s.tide.tick) (us : Nat) : phaseEnd t us = phaseEnd s us := by
  unfold phaseEnd tickPos
  rw [h]

theorem capPulse_timersReact (s : State) (c : Nat) : TimersReact s (capPulse s c) :=
  (capSignal_timersReact s c true).trans (settleTimers_timersReact _)

end Sys2Proof.Machine

open Sys2Proof Sys2Proof.Machine

/-- Settles O56: the fence's own effects stand between the forming of the final moor sets (`Forms`) and the edge of the fence. -/
theorem fencesCommitTheTide : Obligations.FencesCommitTheTide := by
  unfold Obligations.FencesCommitTheTide
  intro s hs
  refine ⟨fun h => if_pos ?_, fun hr hc hp => ⟨capPulse (fenceEnd s) 3, fenceEnd s, execCommitFence_eq s hr hc hp, rfl,
    capPulse_timersReact _ 3, ?_⟩⟩
  · rcases h with h | h | h <;> simp [h]
  have ht := fenceEnd_tide hr
  have htick : (fenceEnd s).tide.tick = (enterPhase s 2 1650).tide.tick := by rw [ht, fenceStart_frame]
  have hbud : (fenceEnd s).tide.budget = (fenceStart s).tide.budget := by rw [ht]
  refine ⟨?_, ?_, ?_, ?_, fun d => ⟨?_, fenceEnd_commits hr d⟩, fenceEnd_moor_eq hr, fenceEnd_faultMoored hr, ?_, fenceEnd_sent hr,
    fenceEnd_undecided hr hs.2.1, ?_, ?_, fenceEnd_twinDiff hr, fenceEnd_rest hr⟩
  · rw [ht, fenceStart_frame]
  · rw [htick, enterPhase_tick_toNat]
  · intro hl
    rw [hbud, phaseEnd_of_tick htick, fenceStart_budget s hl]
  · intro j hj
    rw [hbud, fenceStart_budget_ne s j hj]
  · exact (fenceEnd_sets s d).2.2.1.trans (finals_formed _ d)
  · intro ha hb hA hB
    have hy := fenceFinals_of_formed s ha hb hA hB
    have hset : ∀ d, ((fenceEnd s).die d).final = (s.die d).final := fun d => by
      rw [(fenceEnd_sets s d).1, hy, fenceStart_die]
    refine ⟨hset .A, hset .B, ?_⟩
    rw [fenceEnd_faultM hr, hy, fenceStart_frame]
    rfl
  · rw [fenceEnd_eva hr]
    exact EvaBlk.fenced_prov _ _
  · rw [fenceEnd_eva hr]
    rfl

end

section
/-!
SUPPORT. O54, which fails: a copy whose two dies' copies do not name the same port.
-/

namespace Sys2Proof.Machine

/-- A SERVICE telegram of tide 0. -/
def strayTelegram : Lst :=
  { kind := 2, src := 0, dst := 0, tide := 0, lane := .A, unit := false, subseq := 0, payload := [], sigA := 0, sigB := 0 }

/-- The B-die's copy of it, on port 0. -/
def strayCopy : RxCopy := { copy := 0, port := 0, lane := .A, f := strayTelegram }

/-- The B-die runs and has a passing A-verdict on its copy of port 0; the A-die's copy of that number stands at port 1, and the
telegram has been accepted before. -/
def strayCopies : State :=
  { State.reset with
    b := { State.reset.b with inReset := false }
    ab := [.aVerdict 0 true]
    intake := {
      bCopies := [strayCopy]
      aCopies := [{ strayCopy with port := 1 }]
      dups := [{ src := 0, kind := 2, unit := false, high := seqVal strayTelegram, seen := 1 }] } }

theorem strayCopies_taken : takeFrame strayCopies.ab GwFrame.isVerdictA = some (.aVerdict 0 true, []) := rfl

theorem strayCopies_waits : (strayCopies.intake.bCopies.find? fun x => x.copy = 0) = some strayCopy := rfl

/-- The telegram is not accepted again (R226): the duplicate counts at port 1, where the A-die's copy stands, and not at port 0. -/
theorem strayCopies_lands (t : State) (h : exec .aVerdictReceived strayCopies = .next t) :
    (t.port 0).dup = 0 ∧ (t.port 1).dup = 1 := by
  cases h
  decide

end Sys2Proof.Machine

open Sys2Proof Sys2Proof.Machine

/-- Refutes O54: nothing says that the two dies' copies of one number stand at one port. In `strayCopies` they do not, and the
duplicate SERVICE copy counts at the port of the A-die's copy, where the statement has it count at the port of the B-die's. -/
theorem not_copiesAreCheckedAndLand : ¬ Obligations.CopiesAreCheckedAndLand := by
  unfold Obligations.CopiesAreCheckedAndLand
  intro h
  obtain ⟨_, _, _, _, hlands, _⟩ := h strayCopies (by decide)
  obtain ⟨t, ht, _, _, _, _, hcount⟩ := hlands 0 [] strayCopy rfl strayCopies_taken strayCopies_waits
  have hdup : (t.port 0).dup = sat18 (strayCopies.port 0).dup := hcount.2.2
  rw [(strayCopies_lands t ht).1] at hdup
  exact absurd hdup (by decide)

end

section
/-!
SUPPORT. A port's queues: what a firing and the guard phase leave in them, and what leaves on a lane.
-/

namespace Sys2Proof.Machine

/-! ## Queues of a port -/

/-- The frames that wait for a lane of a port. -/
def Port.queue (x : Port) : Lane → List Lst
  | .A => x.queueA
  | .B => x.queueB

/-- A change of port n, as a read of any port sees it. -/
theorem modPort_port (s : State) (n m : Nat) (f : Port → Port) :
    (s.modPort n f).port m = if m = n ∧ n < s.ports.length then f (s.port m) else s.port m := by
  by_cases h : m = n
  · subst h
    by_cases hl : m < s.ports.length
    · rw [if_pos ⟨rfl, hl⟩]
      exact listMod_getD_self s.ports m f {} hl
    · rw [if_neg (fun h => hl h.2)]
      have e1 : (listMod s.ports m f)[m]? = none := List.getElem?_eq_none (by rw [listMod_length]; omega)
      have e2 : s.ports[m]? = none := List.getElem?_eq_none (by omega)
      simp only [State.port, State.modPort_ports, List.getD_eq_getElem?_getD, e1, e2]
  · rw [if_neg (fun g => h g.1)]
    exact listMod_getD_ne s.ports n m f {} h

/-- An empty queue stays empty. -/
def Drains (s t : State) : Prop := ∀ n l, (s.port n).queue l = [] → (t.port n).queue l = []

theorem Drains.refl (s : State) : Drains s s := fun _ _ => id

theorem Drains.trans {s t u : State} (h : Drains s t) (g : Drains t u) : Drains s u := fun n l hq => g n l (h n l hq)

theorem Drains.of_ports {s t : State} (h : t.ports = s.ports) : Drains s t := fun n l hq => by
  unfold State.port at *
  rw [h]
  exact hq

theorem Answers.drains {s t : State} (h : Answers s t) : Drains s t := .of_ports (by rw [h.frame])

theorem Drains.foldl {α : Type} (f : State → α → State) (h : ∀ s a, Drains s (f s a)) (l : List α) (s : State) :
    Drains s (l.foldl f s) := by
  induction l generalizing s with
  | nil => exact .refl s
  | cons a l ih => exact (h s a).trans (ih _)

/-- A change of a port that fills no queue. -/
theorem modPort_drains (s : State) (p : Nat) (f : Port → Port) (h : ∀ x l, x.queue l = [] → (f x).queue l = []) :
    Drains s (s.modPort p f) := fun n l hq => by
  rw [modPort_port]
  split
  · exact h _ l hq
  · exact hq

theorem laneLeaves_drains (s : State) (p : Fin 4) (l : Lane) (q : List Lst) (n : Nat) : Drains s (laneLeaves s p l q n) := by
  unfold laneLeaves
  split
  · exact .refl s
  · cases l
    · exact (Drains.of_ports (t := s.sendAll _) rfl).trans (modPort_drains _ _ _ fun x m => by cases m <;> exact id)
    · exact .of_ports rfl

theorem portDrops_drains (s : State) (p : Fin 4) : Drains s (portDrops s p) := by
  unfold portDrops
  extract_lets x s0 s1
  have h1 : Drains s s1 := by
    simp only [s1]
    split
    · exact ((laneLeaves_drains s p .A _ _).trans (laneLeaves_drains _ p .B _ _)).trans (.of_ports rfl)
    · exact .refl s
  exact h1.trans (modPort_drains s1 _ _ fun x l _ => by cases l <;> rfl)

theorem moorFrames_drains (s : State) : Drains s (moorFrames s) := by
  unfold moorFrames
  split
  · intro n l hq
    simp only [State.port, List.getD_eq_getElem?_getD, List.getElem?_mapIdx, State.sendAll_frame] at *
    cases h : s.ports[n]? with
    | none => cases l <;> rfl
    | some x =>
      rw [h] at hq
      simp only [Option.map_some, Option.getD_some] at *
      split <;> cases l <;> exact hq
  · exact .refl s

theorem moorDecide_drains (s : State) (d : Die) (src : Option Nat) : Drains s (moorDecide s d src) := by
  refine .of_ports ?_
  unfold moorDecide
  extract_lets s0 x s1
  have h0 : s0.ports = s.ports := by
    simp only [s0]
    split <;> rfl
  cases d <;> exact h0

theorem degradeAdd_drains (s : State) (d : Die) (src : Nat) (gs : GSet) : Drains s (degradeAdd s d src gs) := by
  refine .of_ports ?_
  unfold degradeAdd
  dsimp only
  split
  · split <;> rfl
  · split <;> cases d <;> rfl

theorem evSet_drains (s : State) (src : Nat) (gs : GSet) (subj : BitVec 32) (bd : Bool) : Drains s (evSet s src gs subj bd) := by
  unfold evSet evSetAt
  extract_lets b j cq e s1
  have h : Drains s s1 := .of_ports (by simp [s1])
  split
  · exact h
  · exact h.trans (recMake_answers _ _ _ _ _).drains

theorem fireCore_drains (s : State) (src : Nat) (gs : GSet) (subj : BitVec 32) (bd : Bool) :
    Drains s (fireCore s src gs subj bd) := by
  unfold fireCore
  extract_lets sv s1
  have h1 : Drains s s1 := evSet_drains s src gs subj bd
  split
  · exact h1.trans (degradeAdd_drains s1 _ src gs)
  · split
    · exact h1.trans (moorDecide_drains s1 _ _)
    · exact h1

theorem roleSet_drains (s : State) (r : Role) (cause : BitVec 8) : Drains s (roleSet s r cause) := by
  unfold roleSet
  extract_lets s1 m
  have h1 : Drains s s1 := (recMake_answers _ _ _ _ _).drains
  clear_value s1 m
  have h2 : Drains s1 { s1 with twin := s1.twin.enter r s.now, moor := m } := .of_ports rfl
  have h3 := fireCore_drains { s1 with twin := s1.twin.enter r s.now, moor := m } 87 0 0 false
  exact (h1.trans h2).trans h3

theorem moorEffects_drains (s : State) : Drains s (moorEffects s) := by
  unfold moorEffects
  extract_lets s0 x s1
  have h0 : Drains s s0 := .foldl _ portDrops_drains _ s
  clear_value s0
  have h1 : Drains s0 s1 := .of_ports rfl
  refine (h0.trans h1).trans ?_
  split
  · split
    · exact .of_ports rfl
    · exact moorFrames_drains s1
  · exact .refl s1
  · exact roleSet_drains s1 _ _

theorem unitReset_drains (s : State) (u : RstUnit) (path : Nat) : Drains s (unitReset s u path) := by
  have h1 : Drains s { s with
      settle := (s.settle.filter fun x => x.1 ≠ u) ++ [(u, tideAdd s.now (Config.settleTides u))] } := .of_ports rfl
  have h2 : ∀ t, Drains s t → ∀ rs v, Drains s { t with resets := rs, svc := v } := fun t h rs v => h.trans (.of_ports rfl)
  cases u with
  | fpe n => exact h2 _ (h1.trans (portDrops_drains _ n)) _ _
  | mgp => exact h2 _ (h1.trans (endSessions_answers _ _).drains) _ _
  | svc => exact h2 _ (h1.trans (endSessions_answers _ _).drains) _ _
  | pws d => exact h1

/-- A firing queues no frame. -/
theorem fire_drains (s : State) (src : Nat) (gs : GSet) (subj : BitVec 32) : Drains s (fire s src gs subj) := by
  unfold fire fireAt
  extract_lets d sv s1 s2
  have h1 : Drains s s1 := fireCore_drains s src gs subj false
  have h2 : Drains s s2 := by
    simp only [s2]
    split
    · exact h1.trans (moorEffects_drains s1)
    · exact h1
  split
  · exact .refl s
  · split
    · exact h2.trans (unitReset_drains s2 _ _)
    · exact h2

/-! ## A port at the start of the guard phase (R59, R225) -/

/-- How many frames of a lane have started. -/
def startedOn (unsent : List Nat) (x : Port) (p : Fin 4) : Lane → Nat
  | .A => x.queueA.length - unsent.getD (2 * p.val) 0
  | .B => x.queueB.length - unsent.getD (2 * p.val + 1) 0

/-- The frames of a lane that have not. -/
def waitsOn (unsent : List Nat) (x : Port) (p : Fin 4) (l : Lane) : List Lst := (x.queue l).drop (startedOn unsent x p l)

/-- Those that have. -/
def leftOn (unsent : List Nat) (x : Port) (p : Fin 4) (l : Lane) : List Lst := (x.queue l).take (startedOn unsent x p l)

/-- OUTPUT frames that a port loses. -/
def lostOn (unsent : List Nat) (x : Port) (p : Fin 4) : List Lst :=
  (waitsOn unsent x p .A ++ waitsOn unsent x p .B).filter fun f => f.kind = 1

/-- Two frames are copies of one. -/
def sameFrame (f g : Lst) : Bool := g.kind = f.kind && g.subseq = f.subseq && g.dst = f.dst

/-- SERVICE and ENROL frames that a port holds over. -/
def keptOn (unsent : List Nat) (x : Port) (p : Fin 4) : List Lst :=
  (waitsOn unsent x p .A ++ (waitsOn unsent x p .B).filter fun f => !(waitsOn unsent x p .A).any (sameFrame f)).filter fun f =>
    f.kind ≠ 1 && !((leftOn unsent x p .A).any (sameFrame f) || (leftOn unsent x p .B).any (sameFrame f))

/-- What a lane sends of its queue. -/
def outOn (s : State) (unsent : List Nat) (p : Fin 4) (l : Lane) : List Tx :=
  if laneUp s p.val l then (leftOn unsent (s.port p.val) p l).map fun f => .lst (.field p l) f else []

/-- A port's frames of the guard phase, before what is lost fires. -/
def guardClears (unsent : List Nat) (s : State) (p : Fin 4) : State :=
  let x := s.port p.val
  (laneLeaves (laneLeaves s p .A x.queueA (startedOn unsent x p .A)) p .B x.queueB (startedOn unsent x p .B)).modPort p.val
    fun y => { y with queueA := [], queueB := [], held := y.held ++ keptOn unsent x p }

theorem guardPort_eq (unsent : List Nat) (s : State) (p : Fin 4) : guardPort unsent s p
    = (lostOn unsent (s.port p.val) p).foldl (fun s f => fire s 4 0 (f.dst.setWidth 32)) (guardClears unsent s p) := rfl

/-- Which lanes carry frames follows from what is up and from what is in reset. -/
theorem laneUp_of_up {s t : State} (hr : t.resets = s.resets) (p : Nat) (l : Lane) (h : (t.port p).up l = (s.port p).up l) :
    laneUp t p l = laneUp s p l := by
  unfold laneUp State.unitDown
  rw [h, hr]

/-- What leaves on a lane is handed over, and counted on lane A; no port's state, queue or other count changes. -/
theorem laneLeaves_sends (s : State) (p : Fin 4) (l : Lane) (q : List Lst) (n : Nat) :
    let t := laneLeaves s p l q n
    t = { s with ports := t.ports, tx := t.tx } ∧ t.ports.length = s.ports.length
      ∧ t.tx = s.tx ++ (if laneUp s p.val l then (q.take n).map fun f => Tx.lst (.field p l) f else [])
      ∧ (∀ m, t.port m = { s.port m with txNow := (t.port m).txNow }) ∧ ∀ m, m ≠ p.val → t.port m = s.port m := by
  unfold laneLeaves
  cases laneUp s p.val l
  · exact ⟨rfl, rfl, (List.append_nil _).symm, fun _ => rfl, fun _ _ => rfl⟩
  · cases l
    · refine ⟨rfl, listMod_length _ _ _, rfl, fun m => ?_, fun m hm => ?_⟩
      · simp only [Bool.not_true, Bool.false_eq_true, if_false, modPort_port]
        split <;> rfl
      · simp only [Bool.not_true, Bool.false_eq_true, if_false, modPort_port, hm, false_and]
        rfl
    · exact ⟨rfl, rfl, rfl, fun _ => rfl, fun _ _ => rfl⟩

/-- Where only ports and what has been sent differ, a change of a port keeps it so. -/
theorem portsSent_modPort {s t : State} (h : t = { s with ports := t.ports, tx := t.tx }) (n : Nat) (f : Port → Port) :
    t.modPort n f = { s with ports := (t.modPort n f).ports, tx := (t.modPort n f).tx } :=
  congrArg (fun x : State => { x with ports := listMod t.ports n f }) h

/-- A port's frames of the guard phase: what has started leaves, both queues are empty, and what is kept is held over. -/
theorem guardClears_sends (unsent : List Nat) (s : State) (p : Fin 4) (hl : s.ports.length = 4) :
    let t := guardClears unsent s p
    t = { s with ports := t.ports, tx := t.tx } ∧ t.ports.length = 4
      ∧ t.tx = s.tx ++ (outOn s unsent p .A ++ outOn s unsent p .B)
      ∧ t.port p.val = { s.port p.val with
          queueA := [], queueB := [], held := (s.port p.val).held ++ keptOn unsent (s.port p.val) p,
          txNow := (t.port p.val).txNow }
      ∧ ∀ m, m ≠ p.val → t.port m = s.port m := by
  obtain ⟨hA, hlA, hxA, hpA, hoA⟩ :=
    laneLeaves_sends s p .A (s.port p.val).queueA (startedOn unsent (s.port p.val) p .A)
  obtain ⟨hB, hlB, hxB, hpB, hoB⟩ := laneLeaves_sends
    (laneLeaves s p .A (s.port p.val).queueA (startedOn unsent (s.port p.val) p .A)) p .B (s.port p.val).queueB
    (startedOn unsent (s.port p.val) p .B)
  unfold guardClears
  dsimp only
  generalize laneLeaves s p .A (s.port p.val).queueA (startedOn unsent (s.port p.val) p .A) = s1 at *
  generalize laneLeaves s1 p .B (s.port p.val).queueB (startedOn unsent (s.port p.val) p .B) = s2 at *
  have hup : laneUp s1 p.val .B = laneUp s p.val .B := laneUp_of_up (by rw [hA]) _ _ (by rw [hpA]; rfl)
  have hlen : s2.ports.length = 4 := by omega
  have hpl : p.val < s2.ports.length := by omega
  refine ⟨?_, (listMod_length _ _ _).trans hlen, ?_, ?_, fun m hm => ?_⟩
  · rw [hA] at hB
    exact portsSent_modPort hB p.val _
  · refine hxB.trans ?_
    rw [hxA, hup, List.append_assoc]
    rfl
  · rw [modPort_port, if_pos ⟨rfl, hpl⟩, hpB, hpA]
  · rw [modPort_port, if_neg (fun h => hm h.1), hoB m hm, hoA m hm]

/-- What the guard phase of several ports leaves: the tide, sources that have fired, empty queues. -/
structure Guards (s t : State) : Prop where
  tide : t.tide = s.tide
  evLength : t.ev.length = s.ev.length
  portsLength : t.ports.length = s.ports.length
  runs : ∀ d, t.runs d = s.runs d
  sent : s.tx <+: t.tx
  fired : ∀ src, s.fired src = true → t.fired src = true
  drains : Drains s t

theorem Guards.refl (s : State) : Guards s s := ⟨rfl, rfl, rfl, fun _ => rfl, List.prefix_refl _, fun _ => id, .refl s⟩

theorem Guards.trans {s t u : State} (h : Guards s t) (g : Guards t u) : Guards s u :=
  ⟨g.tide.trans h.tide, g.evLength.trans h.evLength, g.portsLength.trans h.portsLength, fun d => (g.runs d).trans (h.runs d),
    h.sent.trans g.sent, fun src hs => g.fired src (h.fired src hs), h.drains.trans g.drains⟩

theorem fire_guards (s : State) (src : Nat) (gs : GSet) (subj : BitVec 32) : Guards s (fire s src gs subj) := by
  have h := fire_reacts s src gs subj
  exact ⟨h.tide, h.evLength, h.portsLength, h.runs, h.sent, h.fired, fire_drains s src gs subj⟩

theorem Guards.foldl {α : Type} (f : State → α → State) (h : ∀ s a, Guards s (f s a)) (l : List α) (s : State) :
    Guards s (l.foldl f s) := by
  induction l generalizing s with
  | nil => exact .refl s
  | cons a l ih => exact (h s a).trans (ih _)

theorem guardClears_guards (unsent : List Nat) (s : State) (p : Fin 4) (hl : s.ports.length = 4) :
    Guards s (guardClears unsent s p) := by
  obtain ⟨h, hlen, htx, hp, ho⟩ := guardClears_sends unsent s p hl
  generalize guardClears unsent s p = t at *
  refine ⟨by rw [h], by rw [h], by rw [hlen, hl], fun d => ?_, ⟨_, htx.symm⟩, fun src hs => ?_, fun n l hq => ?_⟩
  · rw [h]
    cases d <;> rfl
  · rw [h]
    exact hs
  · by_cases hn : n = p.val
    · rw [hn, hp]
      cases l <;> rfl
    · rw [ho n hn]
      exact hq

theorem guardPort_guards (unsent : List Nat) (s : State) (p : Fin 4) (hl : s.ports.length = 4) :
    Guards s (guardPort unsent s p) ∧ ∀ l, ((guardPort unsent s p).port p.val).queue l = [] := by
  obtain ⟨-, -, -, hp, -⟩ := guardClears_sends unsent s p hl
  have h1 := guardClears_guards unsent s p hl
  rw [guardPort_eq]
  have h2 := Guards.foldl (fun s (f : Lst) => fire s 4 0 (f.dst.setWidth 32)) (fun s f => fire_guards s 4 0 _)
    (lostOn unsent (s.port p.val) p) (guardClears unsent s p)
  exact ⟨h1.trans h2, fun l => h2.drains _ l (by rw [hp]; cases l <;> rfl)⟩

/-- After the guard phase of several ports their queues are empty. -/
theorem guardPorts_guards (unsent : List Nat) (ps : List (Fin 4)) (s : State) (hl : s.ports.length = 4) :
    Guards s (ps.foldl (guardPort unsent) s) ∧ ∀ p ∈ ps, ∀ l, ((ps.foldl (guardPort unsent) s).port p.val).queue l = [] := by
  induction ps generalizing s with
  | nil => exact ⟨.refl s, fun p hp => absurd hp List.not_mem_nil⟩
  | cons q ps ih =>
    obtain ⟨h1, hq⟩ := guardPort_guards unsent s q hl
    obtain ⟨h2, hps⟩ := ih (guardPort unsent s q) (h1.portsLength.trans hl)
    refine ⟨h1.trans h2, fun p hp l => ?_⟩
    rcases List.mem_cons.mp hp with rfl | hp
    · exact h2.drains _ l (hq l)
    · exact hps p hp l

/-- Ports that lose no OUTPUT: what has started leaves, port by port, and each port is as `guardClears` leaves it. -/
theorem guardPorts_of_none_lost (unsent : List Nat) (ps : List (Fin 4)) (s : State) (hn : ps.Nodup) (hl : s.ports.length = 4)
    (hlost : ∀ p ∈ ps, lostOn unsent (s.port p.val) p = []) :
    let t := ps.foldl (guardPort unsent) s
    t = { s with ports := t.ports, tx := t.tx } ∧ t.tx = s.tx ++ ps.flatMap (fun p => outOn s unsent p .A ++ outOn s unsent p .B)
      ∧ ∀ p : Fin 4, if p ∈ ps then t.port p.val = { s.port p.val with
          queueA := [], queueB := [], held := (s.port p.val).held ++ keptOn unsent (s.port p.val) p,
          txNow := (t.port p.val).txNow }
        else t.port p.val = s.port p.val := by
  induction ps generalizing s with
  | nil => exact ⟨rfl, (List.append_nil _).symm, fun p => rfl⟩
  | cons q ps ih =>
    rw [List.nodup_cons] at hn
    obtain ⟨hq, hn⟩ := hn
    obtain ⟨h1, hl1, hx1, hp1, ho1⟩ := guardClears_sends unsent s q hl
    have e : guardPort unsent s q = guardClears unsent s q := by
      rw [guardPort_eq, hlost q List.mem_cons_self]
      rfl
    have hne : ∀ p : Fin 4, p ≠ q → (guardClears unsent s q).port p.val = s.port p.val :=
      fun p hp => ho1 p.val fun h => hp (Fin.ext h)
    have hres : (guardClears unsent s q).resets = s.resets := by rw [h1]
    have hout : ∀ p ∈ ps, ∀ l, outOn (guardClears unsent s q) unsent p l = outOn s unsent p l := fun p hp l => by
      have hpq := hne p fun h => hq (h ▸ hp)
      unfold outOn
      rw [laneUp_of_up hres p.val l (by rw [hpq]), hpq]
    obtain ⟨h2, hx2, hp2⟩ := ih (guardClears unsent s q) hn hl1 fun p hp => by
      rw [hne p fun h => hq (h ▸ hp)]
      exact hlost p (List.mem_cons_of_mem q hp)
    rw [List.foldl_cons, e]
    generalize guardClears unsent s q = s1 at *
    generalize ps.foldl (guardPort unsent) s1 = t at *
    refine ⟨?_, ?_, fun p => ?_⟩
    · rw [h1] at h2
      exact h2
    · rw [hx2, hx1, List.append_assoc, List.flatMap_cons]
      congr 2
      exact List.flatMap_congr fun p hp => by rw [hout p hp .A, hout p hp .B]
    · have hpp := hp2 p
      by_cases hpq : p = q
      · subst hpq
        rw [if_neg hq] at hpp
        rw [if_pos List.mem_cons_self, hpp]
        exact hp1
      · simp only [List.mem_cons, hpq, false_or]
        rw [hne p hpq] at hpp
        exact hpp

/-- The first port that loses an OUTPUT fires source 4 (R59). -/
theorem guardPort_fires (unsent : List Nat) (s : State) (p : Fin 4) (hl : s.ports.length = 4) (he : s.ev.length = 18)
    (hlost : lostOn unsent (s.port p.val) p ≠ []) (hr : s.runs .A = true) : (guardPort unsent s p).fired 4 = true := by
  have h1 := guardClears_guards unsent s p hl
  rw [guardPort_eq]
  obtain ⟨f, fs, hf⟩ := List.exists_cons_of_ne_nil hlost
  rw [hf, List.foldl_cons]
  have h2 := Guards.foldl (fun s (f : Lst) => fire s 4 0 (f.dst.setWidth 32)) (fun s f => fire_guards s 4 0 _) fs
    (fire (guardClears unsent s p) 4 0 (f.dst.setWidth 32))
  exact h2.fired 4 ((fire_fires _ ⟨4, by decide⟩ 0 _ (h1.evLength.trans he)).2 ((h1.runs .A).trans hr))

/-- The ports before p, p, and the ports after it. -/
theorem finRange_split (p : Fin 4) : List.finRange 4 = (List.finRange 4).take p.val ++ p :: (List.finRange 4).drop (p.val + 1)
    ∧ ((List.finRange 4).take p.val).Nodup ∧ p ∉ (List.finRange 4).take p.val ∧ ∀ q ∈ (List.finRange 4).take p.val, q < p := by
  revert p
  decide

theorem guardPorts_fires (unsent : List Nat) (s : State) (p : Fin 4) (hl : s.ports.length = 4) (he : s.ev.length = 18)
    (hlost : lostOn unsent (s.port p.val) p ≠ []) (hfirst : ∀ q : Fin 4, q < p → lostOn unsent (s.port q.val) q = [])
    (hr : s.runs .A = true) : ((List.finRange 4).foldl (guardPort unsent) s).fired 4 = true := by
  obtain ⟨hs, hn, hp, hlt⟩ := finRange_split p
  rw [hs, List.foldl_append, List.foldl_cons]
  obtain ⟨-, -, hport⟩ := guardPorts_of_none_lost unsent _ s hn hl fun q hq => hfirst q (hlt q hq)
  obtain ⟨h1, -⟩ := guardPorts_guards unsent ((List.finRange 4).take p.val) s hl
  have hpp := hport p
  rw [if_neg hp] at hpp
  generalize ((List.finRange 4).take p.val).foldl (guardPort unsent) s = s1 at *
  have hl1 : s1.ports.length = 4 := h1.portsLength.trans hl
  have h2 := guardPort_fires unsent s1 p hl1 (h1.evLength.trans he) (by rwa [hpp]) ((h1.runs .A).trans hr)
  exact (guardPorts_guards unsent _ _ ((guardPort_guards unsent s1 p hl1).1.portsLength.trans hl1)).1.fired 4 h2

/-- A frame is held over where it waits on a lane, has left on none, and is no copy of one that waits on lane A (R225). -/
theorem mem_keptOn (unsent : List Nat) (x : Port) (p : Fin 4) (h : lostOn unsent x p = []) (f : Lst) :
    f ∈ keptOn unsent x p ↔
      (¬ ∃ g, g ∈ leftOn unsent x p .A ++ leftOn unsent x p .B ∧ (g.kind, g.subseq, g.dst) = (f.kind, f.subseq, f.dst))
      ∧ (f ∈ waitsOn unsent x p .A ∨ (f ∈ waitsOn unsent x p .B
          ∧ ∀ g, g ∈ waitsOn unsent x p .A → (g.kind, g.subseq, g.dst) ≠ (f.kind, f.subseq, f.dst))) := by
  have hsame : ∀ g, sameFrame f g = true ↔ (g.kind, g.subseq, g.dst) = (f.kind, f.subseq, f.dst) := fun g => by
    simp only [sameFrame, Bool.and_eq_true, decide_eq_true_eq, Prod.mk.injEq, and_assoc]
  have hk : f ∈ waitsOn unsent x p .A ∨ f ∈ waitsOn unsent x p .B → f.kind ≠ 1 := fun hf =>
    by simpa using List.filter_eq_nil_iff.mp h f (List.mem_append.mpr hf)
  simp only [keptOn, List.mem_filter, List.mem_append, Bool.and_eq_true, Bool.not_eq_true', Bool.or_eq_false_iff,
    List.any_eq_false, decide_eq_true_eq, hsame]
  constructor
  · rintro ⟨hw, -, hA, hB⟩
    exact ⟨fun ⟨g, hg, he⟩ => hg.elim (fun hg => hA g hg he) (fun hg => hB g hg he), hw⟩
  · rintro ⟨hno, hw⟩
    exact ⟨hw, hk (hw.imp_right And.left), fun g hg he => hno ⟨g, .inl hg, he⟩, fun g hg he => hno ⟨g, .inr hg, he⟩⟩

/-- The state in which the ports' guard phase begins: its end is no peak but in emission (R78). -/
def guardStart (s : State) : State := budgetPeak s 5 (if s.tide.ph = 4 then tickPos s else 0)

/-- The ports after the start of the guard phase. -/
def guarded (unsent : List Nat) (s : State) : State := (List.finRange 4).foldl (guardPort unsent) (guardStart s)

theorem execGuardStart_eq (unsent : List Nat) (s : State) (hr : s.tide.running = true) (hp : s.tide.ph.toNat < 5) :
    exec (.guardStart unsent) s = .next (enterPhase (guarded unsent s) 5 1950) := by
  refine if_neg ?_
  simp only [hr, Bool.not_true, Bool.false_or, decide_eq_true_eq, not_le]
  exact hp

end Sys2Proof.Machine
end

section
/-!
SUPPORT. The emission phase: what queueing frames may change, which frames are queued, and O57.
-/

namespace Sys2Proof.Machine

/-! ## Queueing frames -/

/-- Frames that satisfy K are queued on lanes that are up; nodes, the service and what is sent may change, no queue loses a
frame. -/
structure Emits (K : Lst → Prop) (s t : State) : Prop where
  frame : t = { s with ports := t.ports, nodes := t.nodes, tx := t.tx, svc := t.svc }
  outQ : t.svc.outQ = s.svc.outQ
  sent : s.tx <+: t.tx
  portsLength : t.ports.length = s.ports.length
  up : ∀ n l, (t.port n).up l = (s.port n).up l
  down : ∀ n l, laneUp s n l = false → (t.port n).queue l = (s.port n).queue l
  keeps : ∀ n l f, f ∈ (s.port n).queue l → f ∈ (t.port n).queue l
  queued : ∀ n l f, f ∈ (t.port n).queue l → f ∈ (s.port n).queue l ∨ (f.lane = l ∧ K f)

theorem Emits.laneUp {K : Lst → Prop} {s t : State} (h : Emits K s t) (n : Nat) (l : Lane) :
    laneUp t n l = Machine.laneUp s n l := laneUp_of_up (by rw [h.frame]) n l (h.up n l)

theorem Emits.refl (K : Lst → Prop) (s : State) : Emits K s s :=
  ⟨rfl, rfl, List.prefix_refl _, rfl, fun _ _ => rfl, fun _ _ _ => rfl, fun _ _ _ => id, fun _ _ _ => .inl⟩

theorem Emits.trans {K : Lst → Prop} {s t u : State} (h : Emits K s t) (g : Emits K t u) : Emits K s u where
  frame := by have := g.frame; rw [h.frame] at this; exact this
  outQ := g.outQ.trans h.outQ
  sent := h.sent.trans g.sent
  portsLength := g.portsLength.trans h.portsLength
  up n l := (g.up n l).trans (h.up n l)
  down n l hl := (g.down n l ((h.laneUp n l).trans hl)).trans (h.down n l hl)
  keeps n l f hf := g.keeps n l f (h.keeps n l f hf)
  queued n l f hf := (g.queued n l f hf).elim (h.queued n l f) .inr

/-- A change that leaves the ports. -/
theorem Emits.of_ports {K : Lst → Prop} {s t : State} (hf : t = { s with nodes := t.nodes, tx := t.tx, svc := t.svc })
    (hq : t.svc.outQ = s.svc.outQ) (hx : s.tx <+: t.tx) : Emits K s t := by
  have hp : ∀ n, t.port n = s.port n := fun n => by rw [hf]; rfl
  refine ⟨?_, hq, hx, by rw [hf], fun n l => by rw [hp], fun n l _ => by rw [hp], fun n l f => ?_, fun n l f => ?_⟩
  · have hps : t.ports = s.ports := by rw [hf]
    rw [hps]
    exact hf
  · rw [hp]; exact id
  · rw [hp]; exact .inl

/-- A change of one port that queues on lanes that are up alone. -/
theorem modPort_emits {K : Lst → Prop} (s : State) (p : Nat) (g : Port → Port)
    (hup : ∀ l, (g (s.port p)).up l = (s.port p).up l)
    (hq : ∀ l, (g (s.port p)).queue l = (s.port p).queue l
      ∨ (laneUp s p l = true ∧ ∃ f, f.lane = l ∧ K f ∧ (g (s.port p)).queue l = (s.port p).queue l ++ [f])) :
    Emits K s (s.modPort p g) := by
  have key : ∀ n l, ((s.modPort p g).port n).up l = (s.port n).up l ∧ (((s.modPort p g).port n).queue l = (s.port n).queue l
      ∨ (laneUp s n l = true ∧ ∃ f, f.lane = l ∧ K f
        ∧ ((s.modPort p g).port n).queue l = (s.port n).queue l ++ [f])) := fun n l => by
    rw [modPort_port]
    split
    · next h =>
      rw [h.1]
      exact ⟨hup l, hq l⟩
    · exact ⟨rfl, .inl rfl⟩
  refine ⟨rfl, rfl, List.prefix_refl _, listMod_length _ _ _, fun n l => (key n l).1, fun n l hl => ?_, fun n l f hf => ?_,
    fun n l f hf => ?_⟩
  · rcases (key n l).2 with h | ⟨h, -⟩
    · exact h
    · rw [hl] at h
      cases h
  · rcases (key n l).2 with h | ⟨-, x, -, -, h⟩ <;> rw [h]
    · exact hf
    · exact List.mem_append_left _ hf
  · rcases (key n l).2 with h | ⟨-, x, hx, hK, h⟩ <;> rw [h] at hf
    · exact .inl hf
    · rcases List.mem_append.mp hf with hf | hf
      · exact .inl hf
      · rw [List.mem_singleton.mp hf]
        exact .inr ⟨hx, hK⟩

/-- A frame on both lanes of a port, as far as they are up. -/
theorem putPort_emits {K : Lst → Prop} (s : State) (p : Nat) (f : Lst) (h : ∀ l, K { f with lane := l }) :
    Emits K s (putPort s p f) := by
  refine modPort_emits s p _ (fun l => by cases l <;> rfl) fun l => ?_
  cases hl : laneUp s p l
  · exact .inl (by cases l <;> simp [Port.queue, hl])
  · exact .inr ⟨rfl, { f with lane := l }, rfl, h l, by cases l <;> simp [Port.queue, hl]⟩

theorem mem_putPort (s : State) (p : Nat) (f : Lst) (l : Lane) (hp : p < s.ports.length) (hl : laneUp s p l = true) :
    { f with lane := l } ∈ ((putPort s p f).port p).queue l := by
  unfold putPort
  rw [modPort_port, if_pos ⟨rfl, hp⟩]
  cases l <;> simp [Port.queue, hl]

theorem held_emits {K : Lst → Prop} (s : State) (p : Nat) (g : List Lst → List Lst) :
    Emits K s (s.modPort p fun x => { x with held := g x.held }) :=
  modPort_emits s p _ (fun l => by cases l <;> rfl) fun l => .inl (by cases l <;> rfl)

theorem modNode_emits {K : Lst → Prop} (s : State) (n : Nat) (g : NodeRec → NodeRec) : Emits K s (s.modNode n g) :=
  .of_ports rfl rfl (List.prefix_refl _)

theorem frags_emits {K : Lst → Prop} (s : State) (fs : List OutMsg) :
    Emits K s (s.modSvc fun v => { v with frags := fs }) := .of_ports rfl rfl (List.prefix_refl _)

theorem Emits.foldl {α β : Type} {K : Lst → Prop} {s : State} (st : β → State) (f : β → α → β)
    (h : ∀ e a, Emits K s (st e) → Emits K s (st (f e a))) (l : List α) (e : β) (he : Emits K s (st e)) :
    Emits K s (st (l.foldl f e)) := by
  induction l generalizing e with
  | nil => exact he
  | cons a l ih => exact ih _ (h e a he)

/-- The frames of the unit that queueing makes depend on nothing that it changes. -/
theorem Emits.unitLst {K : Lst → Prop} {s t : State} (h : Emits K s t) (kind : BitVec 4) (dst : Word) (sub : Nat)
    (os : Octets) : unitLst t kind dst sub os = Machine.unitLst s kind dst sub os := by
  rw [h.frame]
  rfl

theorem Emits.convoyLst {K : Lst → Prop} {s t : State} (h : Emits K s t) (c : Convoy) :
    convoyLst t c = Machine.convoyLst s c := by
  rw [h.frame]
  rfl

/-! ## SERVICE and ENROL frames (R224, R225, R228, R231, R254) -/

section
variable {K : Lst → Prop} {s : State} {e : Emit}

/-- Frames of this kind and payload are among those that may be queued. -/
def Sendable (K : Lst → Prop) (s : State) (kind : BitVec 4) (payload : Octets) : Prop :=
  ∀ dst sub l, K { unitLst s kind dst sub payload with lane := l }

theorem putEnrol_emits (he : Emits K s e.st) (ps : List Nat) (dst : Word) (payload : Octets) (h : Sendable K s 3 payload) :
    Emits K s (putEnrol e ps dst payload).st := by
  unfold putEnrol
  refine Emits.foldl Emit.st _ (fun x p hx => ?_) ps e he
  rw [he.unitLst]
  split
  · exact hx.trans (putPort_emits _ _ _ fun l => h _ _ l)
  · exact hx.trans (held_emits x.st p (· ++ [_]))

theorem putService_emits (he : Emits K s e.st) (p : Nat) (dst : Word) (payload : Octets) (h : Sendable K s 2 payload) :
    Emits K s (putService e p dst payload).st :=
  he.trans (putPort_emits _ _ _ fun l => by rw [he.unitLst]; exact h _ _ l)

theorem emitHeld_emits (he : Emits K s e.st) (enrol service : Bool) (h3 : enrol = true → ∀ os, Sendable K s 3 os)
    (h2 : service = true → ∀ os, Sendable K s 2 os) : Emits K s (emitHeld e enrol service).st := by
  unfold emitHeld
  refine Emits.foldl Emit.st _ (fun e p he => ?_) _ e he
  refine Emits.foldl Emit.st _ (fun e f he => ?_) _ _ (he.trans (held_emits e.st p fun _ => []))
  split
  · next h =>
    simp only [Bool.and_eq_true] at h
    exact putEnrol_emits he _ _ _ (h3 h.2 _)
  · split
    · next h =>
      simp only [Bool.and_eq_true] at h
      exact putService_emits he _ _ _ (h2 h.1.2 _)
    · exact he.trans (held_emits e.st p (· ++ [f]))

theorem emitWithdraw_emits (he : Emits K s e.st) (h : Sendable K s 3 withdrawPayload) : Emits K s (emitWithdraw e).st := by
  unfold emitWithdraw
  split
  · exact putEnrol_emits he _ _ _ h
  · exact he

theorem emitOffer_emits (he : Emits K s e.st) (k : Nat) (w : Bool) (h : ∀ os, Sendable K s 3 os) :
    Emits K s (emitOffer e k w).st := by
  unfold emitOffer
  extract_lets n p dst e1
  have h1 : Emits K s e1.st := by
    simp only [e1]
    split
    · exact putEnrol_emits he _ _ _ (h _)
    · exact he
  exact Emits.foldl Emit.st _ (fun e os he => putEnrol_emits he _ _ _ (h os)) _ e1 h1

theorem emitOffers_emits (he : Emits K s e.st) (plan : List (Nat × Bool)) (h : ∀ os, Sendable K s 3 os) :
    Emits K s (emitOffers e plan).st := by
  unfold emitOffers
  split
  · exact Emits.foldl Emit.st _ (fun e x he => (emitOffer_emits he x.1 x.2 h).trans (modNode_emits _ _ _)) _ e he
  · exact he
  · exact Emits.foldl Emit.st _ (fun e x he => (emitOffer_emits he x.1 x.2 h).trans (modNode_emits _ _ _)) _ e he

theorem hawserSend_emits (s : State) (f : Lst) : Emits K s (hawserSend s f) := .of_ports rfl rfl ⟨_, rfl⟩

theorem emitFrag_emits (he : Emits K s e.st) (x : OutMsg) (h : ∀ os, Sendable K s 2 os) : Emits K s (emitFrag e x).st := by
  unfold emitFrag
  extract_lets keep
  have hk : Emits K s keep.st := he.trans (frags_emits _ _)
  split
  · split
    · exact putService_emits he _ _ _ (h _)
    · exact hk
  · split
    · exact he
    · split
      · exact he.trans (hawserSend_emits _ _)
      · exact hk
  · exact he

theorem emitService_emits (he : Emits K s e.st) (h : ∀ os, Sendable K s 2 os) : Emits K s (emitService e).st := by
  unfold emitService
  exact Emits.foldl Emit.st _ (fun e x he => emitFrag_emits he x h) _ _ (he.trans (frags_emits _ _))

end

/-! ## Convoys (R221, R222, R253) -/

/-- Convoys are queued on each lane of their port that is up. -/
theorem putConvoys_emits {K : Lst → Prop} (s : State) (cs : List Convoy)
    (h : ∀ c ∈ cs, ∀ l, K { convoyLst s c with lane := l }) :
    let t := cs.foldl (fun s c => putPort s c.port (convoyLst s c)) s
    Emits K s t ∧ ∀ c ∈ cs, ∀ l, c.port < s.ports.length → laneUp s c.port l = true →
      { convoyLst s c with lane := l } ∈ (t.port c.port).queue l := by
  induction cs generalizing s with
  | nil => exact ⟨.refl K s, fun c hc => absurd hc List.not_mem_nil⟩
  | cons x cs ih =>
    have h1 : Emits K s (putPort s x.port (convoyLst s x)) := putPort_emits s _ _ (h x List.mem_cons_self)
    obtain ⟨h2, hin⟩ := ih (putPort s x.port (convoyLst s x)) fun c hc l => by
      rw [h1.convoyLst]
      exact h c (List.mem_cons_of_mem x hc) l
    refine ⟨h1.trans h2, fun c hc l hp hl => ?_⟩
    rcases List.mem_cons.mp hc with rfl | hc
    · exact h2.keeps _ l _ (mem_putPort s _ _ l hp hl)
    · have := hin c hc l (by rw [h1.portsLength]; exact hp) (by rw [h1.laneUp]; exact hl)
      rwa [h1.convoyLst] at this

/-- The unit leaves this convoy to its peer. -/
def withheldBy (s : State) (c : Convoy) : Bool := (s.netA.convoyGroups c &&& heldGroups s) ≠ 0

/-- The convoys' frames are queued; none else. -/
def putConvoys (s : State) : State :=
  (s.netA.convoys.filter fun c => !withheldBy s c).foldl (fun s c => putPort s c.port (convoyLst s c)) s

theorem emitConvoys_eq (s : State) : emitConvoys s = (putConvoys s).modTwin fun t =>
    healthAdd { t with wheldNow := BitVec.ofNat 18 (countIf s.netA.convoys (withheldBy s)) } 5
      (countIf s.netA.convoys (withheldBy s)) := rfl

/-! ## What leaves in the emission phase (R225, R251, R254) -/

/-- The unit emits OUTPUT and ENROL frames: it sends on the field lanes, and the B-die signs (R216, R251). -/
def emitsOut (s : State) : Bool := fieldSends s && s.runs .B

/-- A frame that the emission phase may queue. -/
def Emitted (s : State) (f : Lst) : Prop :=
  f.tide = s.now ∧ f.unit = s.unitBit ∧ s.runs .B = true
    ∧ ((f.kind = 1 ∧ (emitsOut s && s.tide.cfence) = true
          ∧ ∃ c, c ∈ s.netA.convoys ∧ withheldBy s c = false ∧ f = { convoyLst s c with lane := f.lane })
      ∨ (f.kind = 2 ∧ s.stopsSending = false)
      ∨ (f.kind = 3 ∧ fieldSends s = true
          ∧ (s.twin.role = .follower → s.twin.f0Now = false → f.payload = withdrawPayload)))

/-- SERVICE and ENROL frames do not depend on what is counted of the convoys. -/
theorem sendable_modTwin {K : Lst → Prop} {s t : State} (h : Emits K s t) (w : TwinSt) (hw : w.unitId = s.twin.unitId)
    {kind : BitVec 4} {os : Octets} (hs : Sendable K s kind os) : Sendable K { t with twin := w } kind os := fun dst sub l => by
  have e : unitLst { t with twin := w } kind dst sub os = unitLst s kind dst sub os := by
    rw [h.frame]
    unfold unitLst saltOf State.unitBit
    dsimp only
    rw [hw]
    rfl
  rw [e]
  exact hs dst sub l

/-- What a tide's emission does after its convoys. -/
def emitOthers (s s1 : State) : State :=
  let service := s.runs .A && s.runs .B && !s.stopsSending
  let enrol := emitsOut s && (s.twin.role ≠ .follower || s.twin.f0Now)
  let e1 := emitHeld { st := s1, left := List.replicate 4 (64 - moorSpent s1), hleft := 64, enr := 0, svc := 0 } enrol
    (service && s.mode = .live)
  let e2 := if emitsOut s then emitWithdraw e1 else e1
  let e3 := if enrol then emitOffers e2 (s.twin.offers.getD (offerPlan s)) else e2
  if service && !s.unitDown .svc then (emitService e3).st else e3.st

theorem emitAll_eq (s : State) :
    emitAll s = emitOthers s (if emitsOut s && s.tide.cfence then emitConvoys s else s) := rfl

/-- SERVICE frames of the unit where no fault of a pair stops it, and ENROL frames where it sends, a Follower's after frame 0
alone but for a withdrawal. -/
theorem emitOthers_emits {K : Lst → Prop} (s s1 : State)
    (h2 : s.runs .B = true → s.stopsSending = false → ∀ os, Sendable K s1 2 os)
    (h3 : emitsOut s = true → (s.twin.role ≠ .follower ∨ s.twin.f0Now = true) → ∀ os, Sendable K s1 3 os)
    (hw : emitsOut s = true → Sendable K s1 3 withdrawPayload) : Emits K s1 (emitOthers s s1) := by
  unfold emitOthers
  extract_lets service enrol e1 e2 e3
  have hservice : service = true → ∀ os, Sendable K s1 2 os := fun h => by
    simp only [service, Bool.and_eq_true, Bool.not_eq_true'] at h
    exact h2 h.1.2 h.2
  have henrol : enrol = true → ∀ os, Sendable K s1 3 os := fun h => by
    simp only [enrol, Bool.and_eq_true, Bool.or_eq_true, decide_eq_true_eq] at h
    exact h3 h.1 h.2
  have he1 : Emits K s1 e1.st := emitHeld_emits (.refl K s1) _ _ henrol fun h => hservice (by
    simp only [Bool.and_eq_true] at h
    exact h.1)
  have he2 : Emits K s1 e2.st := by
    simp only [e2]
    split
    · next h => exact emitWithdraw_emits he1 (hw h)
    · exact he1
  have he3 : Emits K s1 e3.st := by
    simp only [e3]
    split
    · next h => exact emitOffers_emits he2 _ (henrol h)
    · exact he2
  split
  · next h =>
    simp only [Bool.and_eq_true] at h
    exact emitService_emits he3 (hservice h.1)
  · exact he3

theorem emitted_service (s : State) (hb : s.runs .B = true) (hs : s.stopsSending = false) (os : Octets) :
    Sendable (Emitted s) s 2 os := fun _ _ _ => ⟨rfl, rfl, hb, .inr (.inl ⟨rfl, hs⟩)⟩

theorem emitted_enrol (s : State) (h : emitsOut s = true) (os : Octets)
    (hos : s.twin.role = .follower → s.twin.f0Now = false → os = withdrawPayload) : Sendable (Emitted s) s 3 os := by
  simp only [emitsOut, Bool.and_eq_true] at h
  exact fun _ _ _ => ⟨rfl, rfl, h.2, .inr (.inr ⟨rfl, h.1, hos⟩)⟩

theorem emitted_anyEnrol (s : State) (h : emitsOut s = true) (hr : s.twin.role ≠ .follower ∨ s.twin.f0Now = true)
    (os : Octets) : Sendable (Emitted s) s 3 os :=
  emitted_enrol s h os fun h1 h0 => by
    rcases hr with hr | hr
    · exact absurd h1 hr
    · rw [hr] at h0; cases h0

theorem emitted_convoy (s : State) (h : (emitsOut s && s.tide.cfence) = true) (c : Convoy)
    (hc : c ∈ s.netA.convoys.filter fun c => !withheldBy s c) (l : Lane) : Emitted s { convoyLst s c with lane := l } := by
  obtain ⟨hm, hw⟩ := List.mem_filter.mp hc
  have hb : s.runs .B = true := by
    simp only [emitsOut, Bool.and_eq_true] at h
    exact h.1.2
  exact ⟨rfl, rfl, hb, .inl ⟨rfl, h, c, hm, by simpa using hw, rfl⟩⟩

/-- What an emission may change. -/
def EmissionKeeps (s t : State) : Prop :=
  t = { s with ports := t.ports, nodes := t.nodes, twin := t.twin, tx := t.tx, svc := t.svc } ∧ t.svc.outQ = s.svc.outQ

/-- The emission phase as a whole: what its queues gain, and what it counts as withheld (R251, R253). -/
structure Emission (s t : State) : Prop where
  sent : s.tx <+: t.tx
  down : ∀ n l, laneUp s n l = false → (t.port n).queue l = (s.port n).queue l
  queued : ∀ n l f, f ∈ (t.port n).queue l → f ∈ (s.port n).queue l ∨ (f.lane = l ∧ Emitted s f)
  convoys : (emitsOut s && s.tide.cfence) = true → ∀ c, c ∈ s.netA.convoys → withheldBy s c = false → ∀ l,
    c.port < s.ports.length → laneUp s c.port l = true → { convoyLst s c with lane := l } ∈ (t.port c.port).queue l
  wheldNow : t.twin.wheldNow = if emitsOut s && s.tide.cfence then BitVec.ofNat 18 (countIf s.netA.convoys (withheldBy s))
    else s.twin.wheldNow

theorem emitAll_of_no_convoys (s : State) (h : (emitsOut s && s.tide.cfence) = false) :
    EmissionKeeps s (emitAll s) ∧ Emission s (emitAll s) := by
  have ht : emitAll s = emitOthers s s := by rw [emitAll_eq, h]; rfl
  have he : Emits (Emitted s) s (emitAll s) := by
    rw [ht]
    exact emitOthers_emits s s (emitted_service s) (emitted_anyEnrol s) fun ho => emitted_enrol s ho _ fun _ _ => rfl
  have hw : (emitAll s).twin = s.twin := by rw [he.frame]
  refine ⟨⟨?_, he.outQ⟩, he.sent, he.down, he.queued, fun hc => ?_, ?_⟩
  · rw [hw]
    exact he.frame
  · rw [h] at hc
    cases hc
  · rw [hw, h]
    rfl

/-- Emitting the convoys queues their frames and counts those withheld. -/
theorem emitConvoys_frame {K : Lst → Prop} {s : State} (h : Emits K s (putConvoys s)) : let t := emitConvoys s
    t = { s with ports := t.ports, nodes := t.nodes, twin := t.twin, tx := t.tx, svc := t.svc }
      ∧ t.twin.unitId = s.twin.unitId := by
  have hf := h.frame
  have hw : (putConvoys s).twin = s.twin := by rw [hf]
  rw [emitConvoys_eq]
  generalize putConvoys s = x at *
  have hu : x.twin.unitId = s.twin.unitId := by rw [hw]
  refine ⟨?_, hu⟩
  rw [hf]
  rfl

theorem emitAll_of_convoys (s : State) (h : (emitsOut s && s.tide.cfence) = true) :
    EmissionKeeps s (emitAll s) ∧ Emission s (emitAll s) := by
  obtain ⟨hx, hin⟩ := putConvoys_emits (K := Emitted s) s _ (emitted_convoy s h)
  obtain ⟨hframe, hunit⟩ := emitConvoys_frame (s := s) hx
  have ht : emitAll s = emitOthers s (emitConvoys s) := by rw [emitAll_eq, h]; rfl
  have hsend : ∀ kind os, Sendable (Emitted s) s kind os → Sendable (Emitted s) (emitConvoys s) kind os :=
    fun kind os hs => sendable_modTwin hx (emitConvoys s).twin hunit hs
  have he : Emits (Emitted s) (emitConvoys s) (emitAll s) := by
    rw [ht]
    exact emitOthers_emits s _ (fun hb hs os => hsend 2 os (emitted_service s hb hs os))
      (fun ho hr os => hsend 3 os (emitted_anyEnrol s ho hr os))
      (fun ho => hsend 3 _ (emitted_enrol s ho _ fun _ _ => rfl))
  have hport : ∀ n, (emitConvoys s).port n = (putConvoys s).port n := fun _ => rfl
  have hup : ∀ n l, laneUp (emitConvoys s) n l = laneUp s n l := fun n l => hx.laneUp n l
  refine ⟨⟨?_, he.outQ.trans hx.outQ⟩, hx.sent.trans he.sent, fun n l hl => ?_, fun n l f hf => ?_, fun _ c hc hw l hp hl => ?_, ?_⟩
  · have hf := he.frame
    have hw : (emitAll s).twin = (emitConvoys s).twin := by rw [hf]
    rw [hw]
    generalize emitConvoys s = y at *
    rw [hframe] at hf
    exact hf
  · exact (he.down n l ((hup n l).trans hl)).trans (hx.down n l hl)
  · exact (he.queued n l f hf).elim (hx.queued n l f) .inr
  · exact he.keeps _ l _ (hin c (List.mem_filter.mpr ⟨hc, by simp [hw]⟩) l hp hl)
  · rw [if_pos h, he.frame]
    rfl

theorem emitAll_emission (s : State) : EmissionKeeps s (emitAll s) ∧ Emission s (emitAll s) := by
  cases h : emitsOut s && s.tide.cfence
  · exact emitAll_of_no_convoys s h
  · exact emitAll_of_convoys s h

/-! ## Messages before the emission (R224, R290) -/

theorem drainNotes_answers (s : State) (k : Fin 8) : Answers s (drainNotes s k) := by
  unfold drainNotes
  split
  · exact .refl s
  · exact ((modSes_answers s _ _).trans (.foldl _ (fun s b => sesSend_answers s k 4 b) _ _)).trans (modSes_answers _ _ _)

theorem sendNotes_answers (s : State) : Answers s (sendNotes s) := by
  unfold sendNotes
  split
  · exact .refl s
  · exact .foldl _ drainNotes_answers _ s

/-- Messages that wait have become fragments. -/
theorem fragment_frame (s : State) : ∃ v, fragment s = { s with svc := v } ∧ v.outQ = [] := by
  have key : ∀ (g : SvcSt → OutMsg → SvcSt), (∀ v x, (g v x).outQ = v.outQ) → ∀ (l : List OutMsg) (s : State),
      s.svc.outQ = [] → ∃ v, l.foldl (fun s x => s.modSvc fun v => g v x) s = { s with svc := v } ∧ v.outQ = [] := by
    intro g hg l
    induction l with
    | nil => exact fun s hs => ⟨s.svc, rfl, hs⟩
    | cons x l ih =>
      intro s hs
      obtain ⟨v, h1, h2⟩ := ih (s.modSvc fun v => g v x) ((hg s.svc x).trans hs)
      exact ⟨v, h1, h2⟩
  exact key (fun v x =>
    let ps := servicePayloads v.tag x.octets
    { v with
      frags := v.frags ++ (ps.zip (List.range ps.length)).map fun p =>
        { dest := x.dest, octets := p.1, note := if p.2 + 1 = ps.length then x.note else none },
      tag := v.tag + 1 }) (fun _ _ => rfl) s.svc.outQ (s.modSvc fun v => { v with outQ := [] }) rfl

/-- What emits after the messages have been put into frames. -/
def emissionReady (s : State) : State := fragment (sendNotes s)

theorem emissionReady_frame (s : State) : ∃ v r xs d, emissionReady s = { s with svc := v, rcd := r, tx := xs, dict := d }
    ∧ d = { s.dict with commitBy := d.commitBy } ∧ v.outQ = [] ∧ s.tx <+: xs := by
  have h := sendNotes_answers s
  obtain ⟨v, hv, hq⟩ := fragment_frame (sendNotes s)
  have hf := h.frame
  refine ⟨v, (sendNotes s).rcd, (sendNotes s).tx, (sendNotes s).dict, ?_, by rw [hf], hq, h.sent⟩
  unfold emissionReady
  rw [hv]
  generalize sendNotes s = y at *
  rw [hf]

/-- Messages and NOTIFYs change nothing that the emission reads of the tide, the dies, the ports and the pair. -/
theorem emitAll_ready (s : State) : let t := emitAll (emissionReady s)
    Emission s t ∧ t.svc.outQ = [] ∧ t = { s with
        ports := t.ports, nodes := t.nodes, twin := t.twin, tx := t.tx, svc := t.svc, rcd := t.rcd,
        dict := { s.dict with commitBy := t.dict.commitBy } } := by
  obtain ⟨v, r, xs, d, h, hd, hq, hx⟩ := emissionReady_frame s
  obtain ⟨⟨hf, hout⟩, E⟩ := emitAll_emission (emissionReady s)
  rw [h] at hf hout E
  rw [h]
  generalize emitAll { s with svc := v, rcd := r, tx := xs, dict := d } = t at *
  have hr : t.rcd = r := by rw [hf]
  have hdd : t.dict = d := by rw [hf]
  refine ⟨⟨hx.trans E.sent, E.down, E.queued, E.convoys, E.wheldNow⟩, hout.trans hq, ?_⟩
  rw [hr, hdd, ← hd]
  exact hf

/-! ## The start of emission (R59, R188, R195, R248) -/

/-- A mirror that waits is handed over; its place in the tide may be a new peak. -/
theorem endMirroring_frame (s : State) : ∃ bs, endMirroring s = { s with
    tide := { s.tide with budget := bs }, moor := (if s.tide.ph.toNat < 3 then (queuedCommit s).moor else s.moor),
    tx := s.tx ++ s.twin.mirQueue, twin := { s.twin with mirQueue := [] } } := by
  have h1 : (if s.tide.ph.toNat < 3 then queuedCommit s else s)
      = { s with moor := (if s.tide.ph.toNat < 3 then (queuedCommit s).moor else s.moor) } := by
    split <;> rfl
  unfold endMirroring
  rw [h1]
  dsimp only
  split
  · next h =>
    have ht : { s.twin with mirQueue := [] } = s.twin := by rw [← h]
    exact ⟨s.tide.budget, by rw [ht, h, List.append_nil]⟩
  · exact ⟨_, rfl⟩

/-- The emission phase has begun. -/
def emissionBase (s : State) : State := enterPhase (endMirroring s) 4 1750

theorem emissionBase_frame (s : State) : emissionBase s = { s with
    tide := { s.tide with ph := 4, tick := (emissionBase s).tide.tick, budget := (emissionBase s).tide.budget },
    moor := (if s.tide.ph.toNat < 3 then (queuedCommit s).moor else s.moor),
    tx := s.tx ++ s.twin.mirQueue, twin := { s.twin with mirQueue := [] } } := by
  obtain ⟨bs, h⟩ := endMirroring_frame s
  unfold emissionBase
  rw [h]
  rfl

theorem emissionBase_tick (s : State) :
    (emissionBase s).tide.tick.toNat = max s.tide.tick.toNat (Config.tickAt 1750).toNat := by
  obtain ⟨bs, h⟩ := endMirroring_frame s
  unfold emissionBase
  rw [enterPhase_tick_toNat, h]

theorem execEmissionStart_eq (s : State) (hr : s.tide.running = true) (hp : s.tide.ph.toNat < 4) :
    exec .emissionStart s = .next (emitAll (emissionReady (capPulse (lioEmission (emissionBase s)) 4))) := by
  refine if_neg ?_
  simp only [hr, Bool.not_true, Bool.false_or, decide_eq_true_eq, not_le]
  exact hp

/-- A moored module runs no output test (R195). -/
theorem testOf_of_moored (s : State) (q : Fin 16) (h : s.mooredM = true) : testOf s q = none := by
  unfold testOf
  simp [h]

theorem showTests (ts : List OutTest) (s : State) : let t := ts.foldl (fun s x => s.modLio fun l => l.showTest x) s
    t = { s with lio := t.lio } ∧ t.lio.pulse = s.lio.pulse ∧ t.lio.tests = s.lio.tests := by
  induction ts generalizing s with
  | nil => exact ⟨rfl, rfl, rfl⟩
  | cons x ts ih => exact ih (s.modLio fun l => l.showTest x)

theorem lioEmission_of_not (s : State) (h1 : s.mode ≠ .enrol) (h2 : s.mode ≠ .live) : lioEmission s = s := by
  unfold lioEmission
  simp [h1, h2]

/-- The pulse of the tide and the output tests begin. -/
theorem lioEmission_of_runs (s : State) (h : s.mode = .enrol ∨ s.mode = .live) (hh : s.pws.hold = false) :
    let t := lioEmission s
    t = { s with lio := t.lio } ∧ t.lio.pulse = pulseFeed s ∧ (s.mooredM = true → t.lio.tests = []) := by
  unfold lioEmission
  rw [if_neg (by rcases h with h | h <;> simp [h, hh])]
  extract_lets s1 ts s2 t
  have h1 : s1 = { s with lio := s1.lio } ∧ s1.lio.pulse = pulseFeed s := by
    simp only [s1]
    split
    · next f hf => exact ⟨rfl, hf.symm⟩
    · next hf => exact ⟨rfl, hf.symm⟩
  obtain ⟨hs1, hp⟩ := h1
  obtain ⟨ht, htp, htt⟩ := showTests ts s2
  refine ⟨?_, htp.trans hp, fun hm => htt.trans ?_⟩
  · exact Eq.trans ht (congrArg (fun x : State => { x with lio := t.lio }) hs1)
  · have hm1 : s1.mooredM = true := by rw [hs1]; exact hm
    exact List.filterMap_eq_nil_iff.mpr fun q _ => testOf_of_moored s1 q hm1

theorem lioEmission_frame (s : State) : lioEmission s = { s with lio := (lioEmission s).lio } := by
  by_cases h : (s.mode = .enrol ∨ s.mode = .live) ∧ s.pws.hold = false
  · exact (lioEmission_of_runs s h.1 h.2).1
  · have e : lioEmission s = s := by
      unfold lioEmission
      refine if_pos ?_
      cases hh : s.pws.hold <;> simp_all
    rw [e]

/-- The emission phase begins: mirror, pulse, tests and edge. -/
def emissionStarts (s : State) : State := capPulse (lioEmission (emissionBase s)) 4

theorem emissionStarts_reacts (s : State) :
    Reacts { lioEmission (emissionBase s) with tim := (emissionStarts s).tim } (emissionStarts s) := capPulse_timersReact _ 4

/-- What the emission reads is as it was before the phase. -/
theorem emissionStarts_keeps (s : State) : let u := emissionStarts s
    u.now = s.now ∧ u.unitBit = s.unitBit ∧ u.runs .B = s.runs .B ∧ u.tide.cfence = s.tide.cfence ∧ u.netA = s.netA
      ∧ u.twin.wheldNow = s.twin.wheldNow ∧ u.ports.length = s.ports.length := by
  intro u
  have h := emissionStarts_reacts s
  have hlio := lioEmission_frame (emissionBase s)
  have hbase := emissionBase_frame s
  have htide : u.tide = (emissionBase s).tide := by
    rw [show u.tide = _ from h.tide, hlio]
  have htwin : ReactsTwin { s.twin with mirQueue := [] } u.twin := by
    have e := h.twin
    rw [hlio, hbase] at e
    exact e
  have ha : ReactsDie s.a u.a := by
    have e := h.dieA
    rw [hlio, hbase] at e
    exact e
  have hports : u.ports.length = s.ports.length := by
    rw [show u.ports.length = _ from h.portsLength, hlio, hbase]
  have hruns : u.runs .B = s.runs .B := by
    rw [show u.runs .B = _ from h.runs .B, hlio, hbase]
    rfl
  unfold ReactsTwin at htwin
  unfold ReactsDie at ha
  refine ⟨?_, ?_, hruns, ?_, ?_, ?_, hports⟩
  · unfold State.now
    rw [htide, hbase]
  · unfold State.unitBit
    rw [htwin]
  · rw [htide, hbase]
  · unfold State.netA
    rw [ha]
  · rw [htwin]

/-- OUTPUT frames leave where the unit sends at all and both dies have committed the tide. -/
theorem emissionStarts_sends (s : State) : (emitsOut (emissionStarts s) && (emissionStarts s).tide.cfence)
    = (fieldSends (emissionStarts s) && s.tide.cfence && s.runs .B) := by
  obtain ⟨_, _, kruns, kfence, _, _, _⟩ := emissionStarts_keeps s
  rw [emitsOut, kruns, kfence, Bool.and_right_comm]

theorem emissionStarts_withheld (s : State) (c : Convoy) : withheldBy (emissionStarts s) c
    = decide (s.netA.convoyGroups c &&& heldGroups (emissionStarts s) ≠ 0) := by
  obtain ⟨_, _, _, _, knet, _, _⟩ := emissionStarts_keeps s
  rw [withheldBy, knet]

/-- A queued frame in the words of the statement. -/
theorem emitted_emissionStarts (s : State) (l : Lane) (f : Lst) (hl : f.lane = l) (h : Emitted (emissionStarts s) f) :
    let u := emissionStarts s
    f.lane = l ∧ f.tide = s.now ∧ f.unit = s.unitBit ∧ s.runs .B = true
      ∧ ((f.kind = 1 ∧ (fieldSends u && s.tide.cfence && s.runs .B) = true
            ∧ ∃ c, c ∈ s.netA.convoys ∧ ¬ (s.netA.convoyGroups c &&& heldGroups u ≠ 0) ∧ f = { convoyLst u c with lane := l })
        ∨ (f.kind = 2 ∧ u.stopsSending = false)
        ∨ (f.kind = 3 ∧ fieldSends u = true
          ∧ (u.twin.role = .follower → u.twin.f0Now = false → f.payload = withdrawPayload))) := by
  intro u
  obtain ⟨know, kunit, kruns, -, knet, -, -⟩ := emissionStarts_keeps s
  obtain ⟨ht, hu, hb, hk⟩ := h
  refine ⟨hl, ht.trans know, hu.trans kunit, kruns ▸ hb, hk.imp_left ?_⟩
  rintro ⟨h1, hout, c, hc, hw, hf⟩
  rw [emissionStarts_withheld, decide_eq_false_iff_not] at hw
  rw [hl] at hf
  exact ⟨h1, (emissionStarts_sends s).symm.trans hout, c, knet ▸ hc, hw, hf⟩

/-- The state after the emission's start. -/
def emitted (s : State) : State := emitAll (emissionReady (emissionStarts s))

theorem emitted_convoys (s : State) (hl : s.ports.length = 4)
    (hc : (fieldSends (emissionStarts s) && s.tide.cfence && s.runs .B) = true) (c : Convoy) (hcm : c ∈ s.netA.convoys)
    (hw : ¬ (s.netA.convoyGroups c &&& heldGroups (emissionStarts s) ≠ 0)) (p : Fin 4) (l : Lane) (hcp : c.port = p.val)
    (hup : laneUp (emissionStarts s) p.val l = true) :
    { convoyLst (emissionStarts s) c with lane := l } ∈ ((emitted s).port p.val).queue l := by
  obtain ⟨_, _, _, _, knet, _, kports⟩ := emissionStarts_keeps s
  obtain ⟨E, -, -⟩ := emitAll_ready (emissionStarts s)
  rw [← knet] at hcm
  rw [← hcp] at hup ⊢
  have hw' : withheldBy (emissionStarts s) c = false := by rw [emissionStarts_withheld, decide_eq_false hw]
  exact E.convoys ((emissionStarts_sends s).trans hc) c hcm hw' l (by rw [hcp, kports, hl]; exact p.isLt) hup

theorem emitted_wheldNow (s : State) : (emitted s).twin.wheldNow
    = if fieldSends (emissionStarts s) && s.tide.cfence && s.runs .B then
        BitVec.ofNat 18 (countIf s.netA.convoys fun c => decide (s.netA.convoyGroups c &&& heldGroups (emissionStarts s) ≠ 0))
      else s.twin.wheldNow := by
  obtain ⟨_, _, _, _, knet, kheld, _⟩ := emissionStarts_keeps s
  obtain ⟨E, -, -⟩ := emitAll_ready (emissionStarts s)
  rw [← funext (emissionStarts_withheld s), ← emissionStarts_sends, ← knet, ← kheld]
  exact E.wheldNow

/-- The mode, the supply's hold, the feed whose pulse is due and what is moored are as before the emission phase. -/
theorem emissionBase_keeps (s : State) : (emissionBase s).mode = s.mode ∧ (emissionBase s).pws = s.pws
    ∧ pulseFeed (emissionBase s) = pulseFeed s ∧ (emissionBase s).mooredM = s.mooredM := by
  rw [emissionBase_frame]
  refine ⟨rfl, rfl, rfl, ?_⟩
  unfold State.mooredM MoorSt.comM
  dsimp only
  split <;> rfl

/-- Pulse and tests of the emission phase, none in a moored module (R188, R195). -/
theorem lioEmission_emissionBase (s : State) : let s1 := lioEmission (emissionBase s)
    (s.mode ≠ .enrol → s.mode ≠ .live → s1 = emissionBase s)
      ∧ (s.mode = .enrol ∨ s.mode = .live → s.pws.hold = false → s1.lio.pulse = pulseFeed s
        ∧ (s.mooredM = true → s1.lio.tests = [])) := by
  intro s1
  obtain ⟨hmode, hpws, hpulse, hmoored⟩ := emissionBase_keeps s
  rw [← hmode, ← hpws, ← hpulse, ← hmoored]
  exact ⟨lioEmission_of_not _, fun hm hh => (lioEmission_of_runs _ hm hh).2⟩

/-- The guard phase where no port loses an OUTPUT. -/
theorem guarded_of_none_lost (unsent : List Nat) (s : State) (hl : s.ports.length = 4)
    (h : ∀ p : Fin 4, lostOn unsent (s.port p.val) p = []) : let t := enterPhase (guarded unsent s) 5 1950
    t = { s with tide := t.tide, ports := t.ports, tx := t.tx }
      ∧ t.tx = s.tx ++ (List.finRange 4).flatMap (fun p => outOn s unsent p .A ++ outOn s unsent p .B)
      ∧ ∀ p : Fin 4, t.port p.val = { s.port p.val with
        queueA := [], queueB := [], held := (t.port p.val).held, txNow := (t.port p.val).txNow }
        ∧ (t.port p.val).held = (s.port p.val).held ++ keptOn unsent (s.port p.val) p := by
  obtain ⟨hf, hx, hp⟩ := guardPorts_of_none_lost unsent (List.finRange 4) (guardStart s) (List.nodup_finRange 4) hl
    fun p _ => h p
  unfold guarded
  generalize (List.finRange 4).foldl (guardPort unsent) (guardStart s) = t at *
  refine ⟨?_, hx, fun p => ?_⟩
  · unfold enterPhase
    dsimp only
    rw [hf]
    rfl
  · have hpp := hp p
    rw [if_pos (List.mem_finRange p)] at hpp
    have hh := congrArg Port.held hpp
    exact ⟨hh ▸ hpp, hh⟩

theorem guarded_tide (unsent : List Nat) (s : State) (hl : s.ports.length = 4) :
    let t := enterPhase (guarded unsent s) 5 1950
    t.tide = { s.tide with ph := 5, tick := t.tide.tick, budget := t.tide.budget }
      ∧ t.tide.tick.toNat = max s.tide.tick.toNat (Config.tickAt 1950).toNat := by
  intro t
  have G := (guardPorts_guards unsent (List.finRange 4) (guardStart s) hl).1
  have ht : (guarded unsent s).tide = (guardStart s).tide := G.tide
  have htick : t.tide.tick.toNat = max s.tide.tick.toNat (Config.tickAt 1950).toNat := by
    rw [enterPhase_tick_toNat, ht]
    rfl
  refine ⟨?_, htick⟩
  simp only [t, enterPhase]
  rw [ht]
  rfl

end Sys2Proof.Machine

open Sys2Proof Sys2Proof.Machine

/-- Settles O57: an emission queues only frames that satisfy `Emitted`, and the ports of a guard phase are taken one by one. -/
theorem emissionAndGuardSendFrames : Obligations.EmissionAndGuardSendFrames := by
  unfold Obligations.EmissionAndGuardSendFrames
  intro s hs
  have hl : s.ports.length = 4 := hs.1
  refine ⟨fun h => if_pos (by rcases h with h | h <;> simp [h]), fun hr hp => ?_,
    fun unsent h => if_pos (by rcases h with h | h <;> simp [h]), fun unsent hr hp => ?_⟩
  · obtain ⟨E, hq, hframe⟩ := emitAll_ready (emissionStarts s)
    obtain ⟨hoff, hon⟩ := lioEmission_emissionBase s
    have hwheld := emitted_wheldNow s
    refine ⟨emitted s, emissionStarts s, emissionBase s, lioEmission (emissionBase s), execEmissionStart_eq s hr hp,
      emissionBase_frame s, emissionBase_tick s, rfl, lioEmission_frame _, hoff, hon, rfl, emissionStarts_reacts s,
      E.sent, hq, ⟨fun p l hd => ?_, fun p l f hf => ?_, fun hc c hcm hw p l hcp hup => ?_, fun hc => ?_,
      fun hc => ?_⟩, hframe⟩
    · have h := E.down p.val l hd
      cases l <;> exact h
    · have h := E.queued p.val l f (by cases l <;> exact hf)
      exact h.imp (fun h => by cases l <;> exact h) fun h => emitted_emissionStarts s l f h.1 h.2
    · have h := emitted_convoys s hl hc c hcm hw p l hcp hup
      cases l <;> exact h
    · exact hwheld.trans (if_neg (by simp [hc]))
    · exact hwheld.trans (if_pos hc)
  · obtain ⟨G, hempty⟩ := guardPorts_guards unsent (List.finRange 4) (guardStart s) hl
    obtain ⟨htide, htick⟩ := guarded_tide unsent s hl
    refine ⟨enterPhase (guarded unsent s) 5 1950, execGuardStart_eq unsent s hr hp, htide, htick, fun p => ?_, G.sent,
      fun p hp hfirst ha => ?_, fun hnone => ?_⟩
    · exact ⟨hempty p (List.mem_finRange p) .A, hempty p (List.mem_finRange p) .B⟩
    · exact guardPorts_fires unsent (guardStart s) p hl hs.2.1 hp hfirst ha
    · obtain ⟨hf, hx, hport⟩ := guarded_of_none_lost unsent s hl hnone
      refine ⟨hf, hx, fun p => ⟨(hport p).1, _, (hport p).2, fun f => ?_⟩⟩
      exact mem_keptOn unsent (s.port p.val) p (hnone p) f

end
